-- ==== Sys2Proof/Word.lean ====
section
/-! DEFINITION. The word types of the block: an 8-bit register value, a 5-bit byte offset inside the 32-byte window,
and the 16-bit transaction word (00_scope.md R10, 20_memory.md R50, 30_encoding.md R71). -/

namespace Sys2Proof

/-- A register value: unsigned, 8 bits (00_scope.md R10, `REG_WIDTH` of R5). -/
abbrev Byte := BitVec 8

/-- A byte offset from `UART_BASE`, 0 to 31 (`OFF_BITS` of 00_scope.md R5; 20_memory.md R50). -/
abbrev Offset := BitVec 5

/-- A transaction word, 16 bits (30_encoding.md R71). -/
abbrev TWord := BitVec 16

end Sys2Proof
end

