-- ==== Sys2Proof/Config.lean ====
section
/-! DEFINITION. What a platform fixes (the parameters of 00_scope.md R5) and the free values, constants without a body:
nothing in Lean can evaluate one, so a statement about one holds whatever it is. -/

namespace Sys2Proof

/-- `PROBE_TX`: how the platform answers `TX_READY` (00_scope.md R5, 41_link_state_probe.md R125). -/
inductive ProbeTx where
  /-- the status bit `thre` (41_link_state_probe.md R120) -/
  | thre
  /-- the 16-bit ready-count, its low byte at `loOff` (`TXCNT_LO_OFF`) and its high byte at `hiOff` (`TXCNT_HI_OFF`)
  (41_link_state_probe.md R121) -/
  | count8 (loOff hiOff : Offset)
  deriving DecidableEq, Repr

/-- `PROBE_RX`: how the platform answers `RX_READY`, with the two parameters that are open only on a variant B
platform; on a status-bit platform they are fixed, so they are no data there (00_scope.md R5). -/
inductive ProbeRx where
  /-- the status bit `dr` (41_link_state_probe.md R123) -/
  | dr
  /-- the raw holding-register value; `RX_READ_POPS`, and `RX_EMPTY_VALUE` with `none` for "draw"
  (41_link_state_probe.md R124) -/
  | nonzero (readPops : Bool) (emptyValue : Option Byte)
  deriving DecidableEq, Repr

/-- The parameters of a platform (00_scope.md R5). Fixed for a machine: no step changes them. -/
structure Platform where
  /-- `UART_BASE`; the width of a bus address is not given (20_memory.md R51) -/
  uartBase : Nat
  /-- `TX_DEPTH`, at least 1 -/
  txDepth : Nat
  /-- `RX_DEPTH`, at least 1 -/
  rxDepth : Nat
  /-- `PROBE_TX` with the offsets of its count -/
  probeTx : ProbeTx
  /-- `PROBE_RX` with `RX_READ_POPS` and `RX_EMPTY_VALUE` -/
  probeRx : ProbeRx
  /-- `FCR_INIT`, the one value the initialisation writes to FCR -/
  fcrInit : Byte
  deriving DecidableEq, Repr

/-- The values the control registers happen to hold after reset, a draw each (10_state.md R49). -/
structure ResetDraws where
  /-- `reg.ier` -/
  ier : Byte
  /-- `reg.fcr` -/
  fcr : Byte
  /-- `reg.fifo_en` -/
  fifoEn : Bool
  /-- `reg.lcr`, the mode latch included -/
  lcr : Byte
  /-- `reg.mcr` -/
  mcr : Byte
  /-- `reg.dll` -/
  dll : Byte
  /-- `reg.dlh` -/
  dlh : Byte
  deriving DecidableEq, Repr

/-- The draws of a run (10_state.md R46): the byte the `n`-th draw gives. FREE VALUE (log 6). -/
opaque Config.freeByte : Nat → Byte

/-- The 16-bit ready-count while `n` entries are free and `n` does not fit 16 bits: the spec states no such value
(10_state.md R38). FREE VALUE (log 7). -/
opaque Config.freeCount : Nat → BitVec 16

/-- The interrupt output at the `n`-th moment it is looked at while IER is not 0x00 (60_exceptions.md R170).
FREE VALUE (log 14). -/
opaque Config.freeIrq : Nat → Bool

end Sys2Proof
end

