-- ==== Sys2Proof/Machine/Platform.lean ====
section
/-! DEFINITION. What the rules ask of a platform's parameters, and the platform and the reset draws of the fixed
`State.reset` (00_scope.md R5, 10_state.md R49). -/

namespace Sys2Proof

/-- `RX_READ_POPS`: true when `PROBE_RX = DR`, OPEN otherwise (00_scope.md R5). -/
def Platform.rxReadPops (p : Platform) : Bool :=
  match p.probeRx with
  | .dr => true
  | .nonzero pops _ => pops

/-- `RX_EMPTY_VALUE`, `none` for "draw": "draw" when `PROBE_RX = DR`, OPEN otherwise (00_scope.md R5). -/
def Platform.rxEmptyValue (p : Platform) : Option Byte :=
  match p.probeRx with
  | .dr => none
  | .nonzero _ v => v

/-- `TXCNT_LO_OFF`, where the platform has it. -/
def Platform.txcntLoOff (p : Platform) : Option Offset :=
  match p.probeTx with
  | .thre => none
  | .count8 lo _ => some lo

/-- `TXCNT_HI_OFF`, where the platform has it. -/
def Platform.txcntHiOff (p : Platform) : Option Offset :=
  match p.probeTx with
  | .thre => none
  | .count8 _ hi => some hi

/-- `TX_READY_MIN`: "ready when count ≥ 8" (00_scope.md R5). -/
def txReadyMin : Nat := 8

/-- The six offsets of the source's map, stride 4 (20_memory.md R58). -/
def mappedOffsets : List Offset := [0, 4, 8, 12, 16, 20]

/-- DESIGN CHOICE (log 4): the platform of the fixed `State.reset`. The spec leaves every one of these open; every
statement that does not name this platform holds for all of them. The ready-count variant is taken because all twenty
rows of the decode table exist on it; the offsets 24 and 28, the depths 16 and `FCR_INIT = 0xC7` are the example values
of 95_test_vectors.md. -/
def Platform.reference : Platform :=
  { uartBase := 0
    txDepth := 16
    rxDepth := 16
    probeTx := .count8 24 28
    probeRx := .dr
    fcrInit := 0xC7 }

/-- DESIGN CHOICE (log 5): the reset draws of the fixed `State.reset`, all zero. The spec makes each a draw
(10_state.md R49); `State.resetWith` takes any. -/
def ResetDraws.reference : ResetDraws :=
  { ier := 0, fcr := 0, fifoEn := false, lcr := 0, mcr := 0, dll := 0, dlh := 0 }

end Sys2Proof
end

