-- ==== Sys2Proof/Machine/Transaction.lean ====
section
/-! DEFINITION. The transaction word, bit by bit: its fields, the check made before decoding, the decode word, and the
word of a read or a write (30_encoding.md R71, R72, R74). -/

namespace Sys2Proof

/-- `W`, bit 15: 1 = write, 0 = read. -/
def TWord.isWrite (t : TWord) : Bool := t.getLsbD 15

/-- `L`, bit 14: the mode latch, filled in by the decoder. -/
def TWord.latchBit (t : TWord) : Bool := t.getLsbD 14

/-- Bit 13, which must be 0. -/
def TWord.zeroBit (t : TWord) : Bool := t.getLsbD 13

/-- `off`, bits 12:8. -/
def TWord.offset (t : TWord) : Offset := t.extractLsb' 8 5

/-- `data`, bits 7:0. -/
def TWord.data (t : TWord) : Byte := t.extractLsb' 0 8

/-- The check of 30_encoding.md R71 on a word as issued: bit 13 clear, bit 14 clear, and a read carries no data. -/
def TWord.isTransaction (t : TWord) : Bool :=
  !t.zeroBit && !t.latchBit && (t.isWrite || t.data == 0)

/-- The decode word `X`: `T` with bit 14 replaced by the mode latch (30_encoding.md R72). -/
def TWord.withLatch (latch : Bool) (t : TWord) : TWord :=
  (BitVec.ofBool t.isWrite ++ BitVec.ofBool latch ++ t.extractLsb' 0 14 : BitVec 16)

/-- A word from its fields, as issued (`L` = 0). -/
def TWord.make (write : Bool) (off : Offset) (d : Byte) : TWord :=
  (BitVec.ofBool write ++ 0#2 ++ off ++ d : BitVec 16)

/-- Format `RD` with the latch not yet filled in: `RD off` (30_encoding.md R74, R79). -/
def readWord (off : Offset) : TWord := TWord.make false off 0

/-- Format `WR` with the latch not yet filled in: `WR off, d` (30_encoding.md R74, R79). -/
def writeWord (off : Offset) (d : Byte) : TWord := TWord.make true off d

/-- Is the access claimed by a row above `RESERVED_OFFSET`? Both directions of the six mapped offsets are, and the reads of
the two ready-count offsets (30_encoding.md R73, 40_register_access.md R111). -/
def claimed (p : Platform) (write : Bool) (off : Offset) : Bool :=
  mappedOffsets.contains off || (!write && (p.txcntLoOff == some off || p.txcntHiOff == some off))

end Sys2Proof
end

