-- ==== Sys2Proof/Syntax.lean ====
section
/-! DEFINITION. The bus operations, one constructor per row of the decode table (30_encoding.md R73). -/

namespace Sys2Proof

/-- A bus operation. The data byte of a write is its operand (30_encoding.md R70, R76); the two catch-all rows keep
every field of the word that the host supplied. -/
inductive Instr where
  /-- `RBR_READ` (40_register_access.md R90) -/
  | rbrRead
  /-- `THR_WRITE d` (R91) -/
  | thrWrite (d : Byte)
  /-- `DLL_READ` (R92) -/
  | dllRead
  /-- `DLL_WRITE d` (R93) -/
  | dllWrite (d : Byte)
  /-- `IER_READ` (R94) -/
  | ierRead
  /-- `IER_WRITE d` (R95) -/
  | ierWrite (d : Byte)
  /-- `DLH_READ` (R96) -/
  | dlhRead
  /-- `DLH_WRITE d` (R97) -/
  | dlhWrite (d : Byte)
  /-- `FCR_WRITE d` (R100) -/
  | fcrWrite (d : Byte)
  /-- `OFF8_READ` (R101) -/
  | off8Read
  /-- `LCR_READ` (R102) -/
  | lcrRead
  /-- `LCR_WRITE d` (R103) -/
  | lcrWrite (d : Byte)
  /-- `MCR_READ` (R104) -/
  | mcrRead
  /-- `MCR_WRITE d` (R105) -/
  | mcrWrite (d : Byte)
  /-- `LSR_READ` (R107) -/
  | lsrRead
  /-- `LSR_WRITE d` (R108) -/
  | lsrWrite (d : Byte)
  /-- `TXCNT_LO_READ` (R109) -/
  | txcntLoRead
  /-- `TXCNT_HI_READ` (R110) -/
  | txcntHiRead
  /-- `RESERVED_OFFSET`: a read or a write of an offset no other row claims (R111) -/
  | reservedOffset (write : Bool) (off : Offset) (d : Byte)
  /-- `BAD_WORD`: a word that is not a transaction (30_encoding.md R71) -/
  | badWord (t : TWord)
  deriving DecidableEq, Repr

end Sys2Proof
end

