-- ==== Sys2Proof/WellFormed.lean ====
section
/-! DEFINITION. When a platform's parameters are legal, when an instruction is one that some word encodes on a platform,
and in which bank it can be issued. -/

namespace Sys2Proof

/-- The constraints of 00_scope.md R5 and 30_encoding.md R73 on the parameters: depths at least 1, and the two ready-count
offsets distinct from each other and from the six mapped ones. -/
def Platform.wf (p : Platform) : Bool :=
  decide (1 ≤ p.txDepth) && decide (1 ≤ p.rxDepth) &&
    match p.probeTx with
    | .thre => true
    | .count8 lo hi => lo != hi && !mappedOffsets.contains lo && !mappedOffsets.contains hi

/-- A word of the platform encodes the instruction: the ready-count rows exist only when `PROBE_TX = COUNT8`, the reserved
row is for unclaimed offsets and a read carries no data, and a bad word fails the check of 30_encoding.md R71. -/
def Instr.wf (p : Platform) : Instr → Bool
  | .rbrRead => true
  | .thrWrite _ => true
  | .dllRead => true
  | .dllWrite _ => true
  | .ierRead => true
  | .ierWrite _ => true
  | .dlhRead => true
  | .dlhWrite _ => true
  | .fcrWrite _ => true
  | .off8Read => true
  | .lcrRead => true
  | .lcrWrite _ => true
  | .mcrRead => true
  | .mcrWrite _ => true
  | .lsrRead => true
  | .lsrWrite _ => true
  | .txcntLoRead => p.txcntLoOff.isSome
  | .txcntHiRead => p.txcntHiOff.isSome
  | .reservedOffset write off d => !claimed p write off && (write || d == 0)
  | .badWord t => !t.isTransaction

/-- The bank the instruction is reached in: the value of the mode latch for the eight operations of offsets 0 and 4, `none`
where the latch does not matter (30_encoding.md R73, 40_register_access.md R98). -/
def Instr.bank : Instr → Option Bool
  | .rbrRead => some false
  | .thrWrite _ => some false
  | .dllRead => some true
  | .dllWrite _ => some true
  | .ierRead => some false
  | .ierWrite _ => some false
  | .dlhRead => some true
  | .dlhWrite _ => some true
  | .fcrWrite _ => none
  | .off8Read => none
  | .lcrRead => none
  | .lcrWrite _ => none
  | .mcrRead => none
  | .mcrWrite _ => none
  | .lsrRead => none
  | .lsrWrite _ => none
  | .txcntLoRead => none
  | .txcntHiRead => none
  | .reservedOffset _ _ _ => none
  | .badWord _ => none

/-- The instruction can be issued while the mode latch is `latch`. -/
def Instr.inBank (latch : Bool) (i : Instr) : Bool :=
  i.bank == none || i.bank == some latch

end Sys2Proof
end

