-- ==== Sys2Proof/Decode.lean ====
section
/-! DEFINITION. Decoding: the table of 30_encoding.md R73, tried in its order and total on every word; then the encoder,
from the same table; then the decoder as the opcode table numbers its bits. -/

namespace Sys2Proof

/-- One row of the decode table that claims a single offset. `latch = none` stands for "any". -/
structure DecodeRow where
  /-- the `W` column -/
  write : Bool
  /-- the `L` column -/
  latch : Option Bool
  /-- the `off` column -/
  off : Offset
  /-- the operation the row selects, from the data byte -/
  op : Byte → Instr

/-- The row's `mask` column: 0xFF00 tests `W`, `L`, bit 13 and `off`; 0xBF00 leaves `L` out (30_encoding.md R73). -/
def DecodeRow.mask (r : DecodeRow) : TWord :=
  match r.latch with
  | some _ => 0xFF00
  | none => 0xBF00

/-- The row's `match` column. -/
def DecodeRow.pattern (r : DecodeRow) : TWord :=
  (BitVec.ofBool r.write ++ BitVec.ofBool (r.latch.getD false) ++ 0#1 ++ r.off ++ 0#8 : BitVec 16)

/-- The row claims the decode word `x`: its fields are the row's. -/
def DecodeRow.hits (r : DecodeRow) (x : TWord) : Bool :=
  x.isWrite == r.write && !x.zeroBit && x.offset == r.off && r.latch.all (fun l => x.latchBit == l)

/-- The sixteen rows at the six mapped offsets, in the table's order. -/
def fixedRows : List DecodeRow :=
  [ ⟨false, some false, 0, fun _ => .rbrRead⟩,
    ⟨true, some false, 0, .thrWrite⟩,
    ⟨false, some true, 0, fun _ => .dllRead⟩,
    ⟨true, some true, 0, .dllWrite⟩,
    ⟨false, some false, 4, fun _ => .ierRead⟩,
    ⟨true, some false, 4, .ierWrite⟩,
    ⟨false, some true, 4, fun _ => .dlhRead⟩,
    ⟨true, some true, 4, .dlhWrite⟩,
    ⟨true, none, 8, .fcrWrite⟩,
    ⟨false, none, 8, fun _ => .off8Read⟩,
    ⟨false, none, 12, fun _ => .lcrRead⟩,
    ⟨true, none, 12, .lcrWrite⟩,
    ⟨false, none, 16, fun _ => .mcrRead⟩,
    ⟨true, none, 16, .mcrWrite⟩,
    ⟨false, none, 20, fun _ => .lsrRead⟩,
    ⟨true, none, 20, .lsrWrite⟩ ]

/-- The two ready-count rows, "only when `PROBE_TX = COUNT8`". -/
def txcntRows (p : Platform) : List DecodeRow :=
  match p.probeTx with
  | .thre => []
  | .count8 lo hi => [⟨false, none, lo, fun _ => .txcntLoRead⟩, ⟨false, none, hi, fun _ => .txcntHiRead⟩]

/-- The table on a decode word: the first row that matches wins, and the last two rows catch everything else
(30_encoding.md R73). -/
def decodeX (p : Platform) (x : TWord) : Instr :=
  match (fixedRows ++ txcntRows p).find? (fun r => r.hits x) with
  | some r => r.op x.data
  | none => if x.zeroBit then .badWord x else .reservedOffset x.isWrite x.offset x.data

/-- The instruction a word `t` selects, as the host issues it, while the mode latch is `latch`: the word is checked, then
turned into the decode word, then looked up (30_encoding.md R71 to R73). -/
def decode (p : Platform) (latch : Bool) (t : TWord) : Instr :=
  if t.isTransaction then decodeX p (t.withLatch latch) else .badWord t

/-- The word of an instruction as the host issues it, `L` = 0 (30_encoding.md R71, R74). The ready-count rows have a word
only on a variant B platform; elsewhere they are ill-formed. -/
def encode (p : Platform) : Instr → TWord
  | .rbrRead => readWord 0
  | .thrWrite d => writeWord 0 d
  | .dllRead => readWord 0
  | .dllWrite d => writeWord 0 d
  | .ierRead => readWord 4
  | .ierWrite d => writeWord 4 d
  | .dlhRead => readWord 4
  | .dlhWrite d => writeWord 4 d
  | .fcrWrite d => writeWord 8 d
  | .off8Read => readWord 8
  | .lcrRead => readWord 12
  | .lcrWrite d => writeWord 12 d
  | .mcrRead => readWord 16
  | .mcrWrite d => writeWord 16 d
  | .lsrRead => readWord 20
  | .lsrWrite d => writeWord 20 d
  | .txcntLoRead => readWord (p.txcntLoOff.getD 0)
  | .txcntHiRead => readWord (p.txcntHiOff.getD 0)
  | .reservedOffset write off d => TWord.make write off d
  | .badWord t => t

/-- The issued word of a word numbered as spec/opcode_table.json numbers it: the table's bit 14 is the decoder's `L`, which a
word as issued holds clear (30_encoding.md R71, R72; log 20). -/
def tableIssued (w : Nat) : TWord := BitVec.ofNat 16 w &&& 0xBFFF

/-- The mode latch a table word asks for: its bit 14. -/
def tableLatch (w : Nat) : Bool := (BitVec.ofNat 16 w).getLsbD 14

/-- The instruction the decoder reads from the `nbits` low bits of `w`, numbered as spec/opcode_table.json numbers them, on
the reference platform (log 4, log 20). `none` for a row longer than a transaction word. -/
def decodeTableWord (nbits w : Nat) : Option Instr :=
  if nbits ≤ 16 then
    some (decode Platform.reference (tableLatch (w % 2 ^ nbits)) (tableIssued (w % 2 ^ nbits)))
  else none

end Sys2Proof
end

