-- ==== Sys2Proof/Machine/State.lean ====
section
/-! DEFINITION. The state of the machine, all of it plain data: the registers, queues, shift register, traces and marks of
10_state.md, the host's position in a composite operation, and the model's own fields (the platform, what the host
has yet to issue, who moves next, what the host has been given, and the counter of the draws). -/

namespace Sys2Proof.Machine

/-- Why the host was refused (60_exceptions.md R167): the reason kept by the sticky mark `refused`. -/
inductive Reason where
  /-- X1 `REF_OFFSET`: an access to an undefined offset -/
  | refOffset
  /-- X2 `REF_WIDTH`: an access wider than one byte -/
  | refWidth
  /-- X3 `REF_WORD`: a malformed transaction word -/
  | refWord
  /-- X4 `REF_OFF8_READ`: a read of offset 8 -/
  | refOff8Read
  /-- X5 `REF_LSR_WRITE`: a write of offset 20 -/
  | refLsrWrite
  /-- X6 `REF_FCR_VALUE`: an FCR write with a value other than `FCR_INIT` -/
  | refFcrValue
  /-- X7 `REF_DIVISOR`: `UART_INIT` with a divisor outside 1 to 65535 -/
  | refDivisor
  deriving DecidableEq, Repr

/-- A symbol of the transmit line trace (10_state.md R42). -/
inductive Symbol where
  /-- a byte sent under a configuration that held from load to completion -/
  | byte (b : Byte)
  /-- something went out, and no source says what -/
  | garbled
  deriving DecidableEq, Repr

/-- What the transmit shift register holds: `some(b, ok)` of 10_state.md R41. -/
structure InFlight where
  /-- the byte being put on the line -/
  b : Byte
  /-- the frame is so far being sent under a configured block -/
  ok : Bool
  deriving DecidableEq, Repr

/-- The steps of the initialisation, 1 to 7 in this order (43_init.md R140). -/
inductive InitStep where
  /-- 1: `WR 4, 0x00` -/
  | disableInterrupts
  /-- 2: `WR 12, 0x80` -/
  | setLatch
  /-- 3: `WR 0, divisor[7:0]` -/
  | divisorLow
  /-- 4: `WR 4, divisor[15:8]` -/
  | divisorHigh
  /-- 5: `WR 12, 0x03` -/
  | clearLatch
  /-- 6: `WR 8, FCR_INIT` -/
  | fifoInit
  /-- 7: `WR 16, 0x20` -/
  | autoflow
  deriving DecidableEq, Repr

/-- `seq`, the host's position inside a composite operation (10_state.md R44, 42_transceiver.md R134), with the operands the
rest of the composite needs. `txReady…` and `rxReady` are the positions of a probe the host runs by itself, and the `Hi`
positions the `yield` between the two reads of the ready-count probe (41_link_state_probe.md R121; log 12). -/
inductive SeqState where
  /-- `IDLE` -/
  | idle
  /-- inside `TX_READY`, before its first read -/
  | txReady
  /-- inside `TX_READY` variant B, between its two reads, with the low byte read -/
  | txReadyHi (lo : Byte)
  /-- inside `RX_READY`, before its read -/
  | rxReady
  /-- `SEND_WAIT` -/
  | sendWait (c : Byte)
  /-- `SEND_WAIT`, between the two reads of a variant B probe -/
  | sendWaitHi (c lo : Byte)
  /-- `SEND_WRITE` -/
  | sendWrite (c : Byte)
  /-- `POLL_PROBE` -/
  | pollProbe
  /-- `POLL_READ` -/
  | pollRead
  /-- `UART_INIT` at a step index, with the divisor -/
  | init (step : InitStep) (divisor : BitVec 16)
  deriving DecidableEq, Repr

/-- The size of a raw bus access (20_memory.md R55). -/
inductive Width where
  /-- one byte, the only access the source defines -/
  | byte
  /-- two bytes -/
  | half
  /-- four bytes -/
  | word
  /-- eight bytes -/
  | double
  deriving DecidableEq, Repr

/-- One operation of the host's program (70_reset_and_hazards.md R205): a bus operation, as a transaction word
(30_encoding.md R71) or as a raw access at a bus address (00_scope.md R11), or a composite operation (30_encoding.md R80). -/
inductive HostOp where
  /-- the transaction word `t` -/
  | transaction (t : TWord)
  /-- `MemRead(addr, n)` -/
  | memRead (addr : Nat) (n : Width)
  /-- `MemWrite(addr, n, v)`; a one-byte access writes the low byte of `v` -/
  | memWrite (addr : Nat) (n : Width) (v : BitVec 64)
  /-- `TX_READY` -/
  | txReady
  /-- `RX_READY` -/
  | rxReady
  /-- `SEND_CHAR c` -/
  | sendChar (c : Byte)
  /-- `POLL_CHAR` -/
  | pollChar
  /-- `UART_INIT frequency, baud` -/
  | uartInit (frequency baud : Nat)
  deriving DecidableEq, Repr

/-- What a completed probe or poll returned to the host's program. -/
inductive Result where
  /-- the boolean of `TX_READY` -/
  | txReady (ready : Bool)
  /-- the boolean of `RX_READY` -/
  | rxReady (ready : Bool)
  /-- `none` or `some(v)` of `POLL_CHAR` -/
  | polled (v : Option Byte)
  deriving DecidableEq, Repr

/-- Who takes the next atomic step (00_scope.md R6): the host, the transmitter, or the receiver with the byte the peer has
chosen. -/
inductive Move where
  /-- the host's next step -/
  | host
  /-- `TX_LOAD` (44_line_agents.md R150) -/
  | txLoad
  /-- `TX_DONE` (44_line_agents.md R151) -/
  | txDone
  /-- `RX_ARRIVE(b)` (44_line_agents.md R153) -/
  | rxArrive (b : Byte)
  deriving DecidableEq, Repr

/-- The state of the machine. -/
structure State where
  /-- the parameters of 00_scope.md R5; no step writes them (log 3) -/
  platform : Platform
  /-- `reg.ier`, the interrupt enable register (10_state.md R27) -/
  ier : Byte
  /-- `reg.fcr`, the last byte written to FCR, readable by no operation (10_state.md R28) -/
  fcr : Byte
  /-- `reg.fifo_en`, the FIFOs are enabled (10_state.md R28) -/
  fifoEn : Bool
  /-- `reg.lcr`, the line control register; bit 7 is the mode latch (10_state.md R29) -/
  lcr : Byte
  /-- `reg.mcr`, the modem control register (10_state.md R33) -/
  mcr : Byte
  /-- `reg.dll`, the low byte of the divisor (10_state.md R24) -/
  dll : Byte
  /-- `reg.dlh`, the high byte of the divisor (10_state.md R25) -/
  dlh : Byte
  /-- `reg.txq`, the transmit queue, oldest first (10_state.md R39) -/
  txq : List Byte
  /-- `reg.rxq`, the receive queue, oldest first (10_state.md R40) -/
  rxq : List Byte
  /-- `reg.tsr`, the transmit shift register (10_state.md R41) -/
  tsr : Option InFlight
  /-- `tx_line`, the symbols put on the line, oldest first (10_state.md R42) -/
  txLine : List Symbol
  /-- `rx_line`, the bytes the peer has delivered, oldest first (10_state.md R42) -/
  rxLine : List Byte
  /-- `fault.tx_overrun` (10_state.md R45) -/
  txOverrun : Bool
  /-- `fault.rx_overrun` (10_state.md R45) -/
  rxOverrun : Bool
  /-- the bytes recorded with `TX_OVERRUN`, for diagnosis only, oldest first (60_exceptions.md R166; log 9) -/
  txLost : List Byte
  /-- the bytes recorded with `RX_OVERRUN`, for diagnosis only, oldest first (60_exceptions.md R166; log 9) -/
  rxLost : List Byte
  /-- `refused` with the reason of the first refusal; `none` while the mark is clear (10_state.md R45) -/
  refused : Option Reason
  /-- `seq` (10_state.md R44) -/
  seq : SeqState
  /-- the bytes returned to the host by its bus reads, oldest first (00_scope.md R8 a; log 8) -/
  reads : List Byte
  /-- what the host's completed probes and polls returned, oldest first (log 8) -/
  results : List Result
  /-- the operations the host has not yet issued (00_scope.md R7; log 2) -/
  program : List HostOp
  /-- the coming moves; when it is empty the host moves (20_memory.md R62); empty at reset, placed from outside (log 1) -/
  schedule : List Move
  /-- how many draws the run has made (10_state.md R46; log 6) -/
  draws : Nat
  deriving DecidableEq, Repr

/-- The faults that stop the machine. The block itself raises none (60_exceptions.md R165): the marks of R166 and R167 are
state, and the run goes on. -/
inductive Fault where
  /-- Raised by a raw access none of whose bytes lies in the block's window: "Addresses outside `UART_BASE` to `UART_BASE + 31`
  are not the block's and the spec says nothing of them" (20_memory.md R59). Safe: the model stops where the platform
  would go on (log 11). -/
  | outsideBlock
  deriving DecidableEq, Repr

/-- The refusals that stop the machine. The spec's own refusals are the sticky mark `State.refused`, not these. -/
inductive Refusal where
  /-- Raised by `exec` for an instruction that has no meaning yet. Safe: the model stops. -/
  | notModelled (mnemonic : String)
  deriving DecidableEq, Repr

/-- The state after reset, for a platform and for the values its draws happen to have: 10_state.md R49, row by row. The
spec gives no value to the model's own `schedule`, `program`, `reads`, `results` and `draws`. DESIGN CHOICE (log 1): the
schedule is empty, so a `step` from here is the host's; 70_reset_and_hazards.md R186 lets the receiver deliver from the
first moment, and such a run is one whose moves are placed in `schedule` from outside, or made by `moveStep`. DESIGN CHOICE
(log 2): the program is empty and is placed from outside too. The two records are empty (log 8), no draw has been made
(log 6). -/
def State.resetWith (p : Platform) (d : ResetDraws) : State :=
  { platform := p
    ier := d.ier
    fcr := d.fcr
    fifoEn := d.fifoEn
    lcr := d.lcr
    mcr := d.mcr
    dll := d.dll
    dlh := d.dlh
    txq := []
    rxq := []
    tsr := none
    txLine := []
    rxLine := []
    txOverrun := false
    rxOverrun := false
    txLost := []
    rxLost := []
    refused := none
    seq := .idle
    reads := []
    results := []
    program := []
    schedule := []
    draws := 0 }

/-- The machine right after reset, on the reference platform with every draw zero. DESIGN CHOICE (log 4, log 5): the spec
fixes neither; a statement about reset is made of `State.resetWith`, for all of both. -/
def State.reset : State := State.resetWith Platform.reference ResetDraws.reference

end Sys2Proof.Machine
end

