-- ==== Sys2Proof/Machine/Ops.lean ====
section
/-! DEFINITION. The named operations on the state: the views of the registers and queues (10_state.md), what a bus read gives
the host, the two marks (the block's only reaction to a fault or a refusal: there is no exception entry and no return,
60_exceptions.md R172, R173), the damage of a configuration write, and the interrupt output. -/

namespace Sys2Proof.Machine

/-! ## Views -/

/-- The mode latch, `reg.lcr[7]` (10_state.md R30). -/
def State.latch (s : State) : Bool := s.lcr.getLsbD 7

/-- The divisor, `reg.dlh ++ reg.dll` (10_state.md R26). -/
def State.divisor (s : State) : BitVec 16 := (s.dlh ++ s.dll : BitVec 16)

/-- `configured` (10_state.md R43). -/
def State.configured (s : State) : Bool :=
  s.lcr == 0x03 && s.mcr == 0x20 && s.divisor != 0

/-- `cap_tx` (10_state.md R39). -/
def State.capTx (s : State) : Nat := bif s.fifoEn then s.platform.txDepth else 1

/-- `cap_rx` (10_state.md R40). -/
def State.capRx (s : State) : Nat := bif s.fifoEn then s.platform.rxDepth else 1

/-- `cap_tx - len(reg.txq)`, the bytes the transmit queue can still accept (10_state.md R38). -/
def State.txFree (s : State) : Nat := s.capTx - s.txq.length

/-- TXCNT, `zext_16(cap_tx - len(reg.txq))` (10_state.md R38); a count that does not fit 16 bits is a free value (log 7). -/
def State.txcnt (s : State) : BitVec 16 :=
  if s.txFree < 65536 then BitVec.ofNat 16 s.txFree else Config.freeCount s.txFree

/-- The interrupt output at the `moment`-th look: inactive while `reg.ier = 0x00`, unconstrained otherwise
(60_exceptions.md R170; log 14). Nothing reads it. -/
def State.interruptOutput (moment : Nat) (s : State) : Bool :=
  if s.ier = 0 then false else Config.freeIrq moment

/-! ## What a read gives the host -/

/-- The bus read returns `v` to the host (00_scope.md R8 a). -/
def returnByte (v : Byte) (s : State) : State := { s with reads := s.reads ++ [v] }

/-- `draw_8()` as it stands in `s`: the value (10_state.md R46). -/
def State.nextDraw (s : State) : Byte := Config.freeByte s.draws

/-- The draw has been made: the next one is fresh. -/
def countDraw (s : State) : State := { s with draws := s.draws + 1 }

/-- The bus read returns a draw. -/
def returnDraw (s : State) : State := countDraw (returnByte s.nextDraw s)

/-- The bus read returns `n` draws (40_register_access.md R112). -/
def returnDraws : Nat → State → State
  | 0, s => s
  | n + 1, s => returnDraws n (returnDraw s)

/-- The byte the last bus read returned. -/
def State.lastRead (s : State) : Byte := s.reads.getLast?.getD 0

/-! ## Marks -/

/-- `refuse r`: the mark keeps the reason of the first refusal (60_exceptions.md R167). -/
def refuse (r : Reason) (s : State) : State := { s with refused := s.refused.or (some r) }

/-- `raise TX_OVERRUN(d)` (60_exceptions.md R166). -/
def raiseTxOverrun (d : Byte) (s : State) : State :=
  { s with txOverrun := true, txLost := s.txLost ++ [d] }

/-- `raise RX_OVERRUN(b)` (60_exceptions.md R166). -/
def raiseRxOverrun (b : Byte) (s : State) : State :=
  { s with rxOverrun := true, rxLost := s.rxLost ++ [b] }

/-! ## Configuration writes -/

/-- `damage_tsr()` (44_line_agents.md R152). -/
def damageTsr (s : State) : State :=
  { s with tsr := s.tsr.map (fun f => { f with ok := false }) }

/-- `if d != reg.X then damage_tsr()`, for the value `old` stored and the value `d` written (44_line_agents.md R152). -/
def damageIfChanged (old d : Byte) (s : State) : State := if d = old then s else damageTsr s

/-! ## Placing an operation for the next step -/

/-- The state with `t` the host's next operation, the host idle and next to move; its mode latch is `latch` where the word
is an access to one of the two banked offsets, 0 and 4, and is left alone elsewhere. -/
def placeTransaction (t : TWord) (latch : Bool) (s : State) : State :=
  let banked := t.isTransaction && (t.offset == 0 || t.offset == 4)
  let lcr := if banked then (BitVec.ofBool latch ++ s.lcr.extractLsb' 0 7 : BitVec 8) else s.lcr
  { s with lcr := lcr, seq := .idle, program := .transaction t :: s.program, schedule := .host :: s.schedule }

end Sys2Proof.Machine
end

