-- ==== Sys2Proof/Machine/ControlRegs.lean ====
section
/-! DEFINITION. The operations on the control registers: IER, FCR, LCR and MCR (40_register_access.md R94, R95, R100,
R102 to R105). -/

namespace Sys2Proof.Machine

/-- `IER_READ` (40_register_access.md R94). -/
def execIerRead (s : State) : Host.Outcome State Fault Refusal := .next (returnByte s.ier s)

/-- `IER_WRITE d` (40_register_access.md R95). -/
def execIerWrite (d : Byte) (s : State) : Host.Outcome State Fault Refusal := .next { s with ier := d }

/-- `FCR_WRITE d` (40_register_access.md R100): `FCR_INIT` enables the FIFOs and empties both queues; every other value is
refused. -/
def execFcrWrite (d : Byte) (s : State) : Host.Outcome State Fault Refusal :=
  .next (if d = s.platform.fcrInit then { s with fcr := d, fifoEn := true, txq := [], rxq := [] }
    else refuse .refFcrValue s)

/-- `LCR_READ` (40_register_access.md R102). -/
def execLcrRead (s : State) : Host.Outcome State Fault Refusal := .next (returnByte s.lcr s)

/-- `LCR_WRITE d` (40_register_access.md R103). -/
def execLcrWrite (d : Byte) (s : State) : Host.Outcome State Fault Refusal :=
  .next { damageIfChanged s.lcr d s with lcr := d }

/-- `MCR_READ` (40_register_access.md R104). -/
def execMcrRead (s : State) : Host.Outcome State Fault Refusal := .next (returnByte s.mcr s)

/-- `MCR_WRITE d` (40_register_access.md R105). -/
def execMcrWrite (d : Byte) (s : State) : Host.Outcome State Fault Refusal :=
  .next { damageIfChanged s.mcr d s with mcr := d }

end Sys2Proof.Machine
end

