-- ==== Sys2Proof/Machine/DataRegs.lean ====
section
/-! DEFINITION. The operations on the data registers of the block: RBR and THR, DLL and DLH (40_register_access.md R90 to R93,
R96, R97). -/

namespace Sys2Proof.Machine

/-- `RBR_READ` (40_register_access.md R90): the head of the receive queue, removed if `RX_READ_POPS`; from an empty queue
`RX_EMPTY_VALUE`, or a draw. -/
def execRbrRead (s : State) : Host.Outcome State Fault Refusal :=
  match s.rxq with
  | v :: rest => .next (returnByte v { s with rxq := if s.platform.rxReadPops then rest else v :: rest })
  | [] =>
    match s.platform.rxEmptyValue with
    | none => .next (returnDraw s)
    | some v => .next (returnByte v s)

/-- `THR_WRITE d` (40_register_access.md R91): the byte is queued, or `TX_OVERRUN` is raised and the queue is unchanged. -/
def execThrWrite (d : Byte) (s : State) : Host.Outcome State Fault Refusal :=
  if s.txq.length < s.capTx then .next { s with txq := s.txq ++ [d] }
  else .next (raiseTxOverrun d s)

/-- `DLL_READ` (40_register_access.md R92). -/
def execDllRead (s : State) : Host.Outcome State Fault Refusal := .next (returnByte s.dll s)

/-- `DLL_WRITE d` (40_register_access.md R93). -/
def execDllWrite (d : Byte) (s : State) : Host.Outcome State Fault Refusal :=
  .next { damageIfChanged s.dll d s with dll := d }

/-- `DLH_READ` (40_register_access.md R96). -/
def execDlhRead (s : State) : Host.Outcome State Fault Refusal := .next (returnByte s.dlh s)

/-- `DLH_WRITE d` (40_register_access.md R97). -/
def execDlhWrite (d : Byte) (s : State) : Host.Outcome State Fault Refusal :=
  .next { damageIfChanged s.dlh d s with dlh := d }

end Sys2Proof.Machine
end

