-- ==== Sys2Proof/Machine/RefusedOps.lean ====
section
/-! DEFINITION. The operations the spec refuses: the sticky mark is set, a read returns a draw, a write changes no register,
and the run goes on (40_register_access.md R101, R108, R111, R113; 30_encoding.md R71). None of them stops the machine. -/

namespace Sys2Proof.Machine

/-- `OFF8_READ` (40_register_access.md R101). -/
def execOff8Read (s : State) : Host.Outcome State Fault Refusal := .next (returnDraw (refuse .refOff8Read s))

/-- `LSR_WRITE d` (40_register_access.md R108). -/
def execLsrWrite (_d : Byte) (s : State) : Host.Outcome State Fault Refusal := .next (refuse .refLsrWrite s)

/-- `RESERVED_OFFSET` (40_register_access.md R111). -/
def execReservedOffset (write : Bool) (_off : Offset) (_d : Byte) (s : State) : Host.Outcome State Fault Refusal :=
  .next (if write then refuse .refOffset s else returnDraw (refuse .refOffset s))

/-- `BAD_WORD` (30_encoding.md R71): not a transaction, so neither a read nor a write; no byte is returned (log 10). -/
def execBadWord (_t : TWord) (s : State) : Host.Outcome State Fault Refusal := .next (refuse .refWord s)

end Sys2Proof.Machine
end

