-- ==== Sys2Proof/Machine/Flags.lean ====
section
/-! DEFINITION. The two status bits and the LSR byte they are read in (10_state.md R34 to R37, R47). -/

namespace Sys2Proof.Machine

/-- `dr`, LSR bit 0: the receive queue is not empty (10_state.md R35). -/
def State.dr (s : State) : Bool := !s.rxq.isEmpty

/-- `thre`, LSR bit 5: the transmit queue is empty (10_state.md R36). -/
def State.thre (s : State) : Bool := s.txq.isEmpty

/-- The byte a read of LSR returns for the draw `u`: its six unnamed bits, with `dr` and `thre` computed now
(40_register_access.md R107). -/
def lsrValue (u : Byte) (s : State) : Byte :=
  (u &&& 0xDE) ||| (if s.dr then 0x01 else 0) ||| (if s.thre then 0x20 else 0)

end Sys2Proof.Machine
end

