-- ==== Sys2Proof/Machine/StatusRegs.lean ====
section
/-! DEFINITION. The reads of the status: LSR and the two bytes of the ready-count (40_register_access.md R107, R109, R110). -/

namespace Sys2Proof.Machine

/-- `LSR_READ` (40_register_access.md R107): `dr`, `thre`, and six bits drawn afresh. -/
def execLsrRead (s : State) : Host.Outcome State Fault Refusal :=
  .next (countDraw (returnByte (lsrValue s.nextDraw s) s))

/-- `TXCNT_LO_READ` (40_register_access.md R109): bits 7:0 of the count. -/
def execTxcntLoRead (s : State) : Host.Outcome State Fault Refusal :=
  .next (returnByte (s.txcnt.extractLsb' 0 8) s)

/-- `TXCNT_HI_READ` (40_register_access.md R110): bits 15:8 of the count. -/
def execTxcntHiRead (s : State) : Host.Outcome State Fault Refusal :=
  .next (returnByte (s.txcnt.extractLsb' 8 8) s)

end Sys2Proof.Machine
end

