-- ==== Sys2Proof/Machine/Dispatch.lean ====
section
/-! DEFINITION. The dispatch: one arm per row of the decode table (30_encoding.md R73), each a call of its meaning. -/

namespace Sys2Proof.Machine

/-- One bus operation, an atomic step (20_memory.md R56). -/
def exec (i : Instr) (s : State) : Host.Outcome State Fault Refusal :=
  match i with
  | .rbrRead => Sys2Proof.Machine.execRbrRead s
  | .thrWrite d => Sys2Proof.Machine.execThrWrite d s
  | .dllRead => Sys2Proof.Machine.execDllRead s
  | .dllWrite d => Sys2Proof.Machine.execDllWrite d s
  | .ierRead => Sys2Proof.Machine.execIerRead s
  | .ierWrite d => Sys2Proof.Machine.execIerWrite d s
  | .dlhRead => Sys2Proof.Machine.execDlhRead s
  | .dlhWrite d => Sys2Proof.Machine.execDlhWrite d s
  | .fcrWrite d => Sys2Proof.Machine.execFcrWrite d s
  | .off8Read => Sys2Proof.Machine.execOff8Read s
  | .lcrRead => Sys2Proof.Machine.execLcrRead s
  | .lcrWrite d => Sys2Proof.Machine.execLcrWrite d s
  | .mcrRead => Sys2Proof.Machine.execMcrRead s
  | .mcrWrite d => Sys2Proof.Machine.execMcrWrite d s
  | .lsrRead => Sys2Proof.Machine.execLsrRead s
  | .lsrWrite d => Sys2Proof.Machine.execLsrWrite d s
  | .txcntLoRead => Sys2Proof.Machine.execTxcntLoRead s
  | .txcntHiRead => Sys2Proof.Machine.execTxcntHiRead s
  | .reservedOffset write off d => Sys2Proof.Machine.execReservedOffset write off d s
  | .badWord t => Sys2Proof.Machine.execBadWord t s

end Sys2Proof.Machine
end

