-- ==== Sys2Proof/Machine/LineAgents.lean ====
section
/-! DEFINITION. The steps of the transmitter and the receiver (44_line_agents.md R150, R151, R153). A step that is not enabled
is not taken: it leaves the state as it is (log 1). -/

namespace Sys2Proof.Machine

/-- `TX_LOAD` is enabled (44_line_agents.md R150). -/
def txLoadEnabled (s : State) : Bool := !s.txq.isEmpty && s.tsr.isNone

/-- `TX_DONE` is enabled (44_line_agents.md R151). -/
def txDoneEnabled (s : State) : Bool := s.tsr.isSome

/-- `TX_LOAD` (44_line_agents.md R150): the oldest queued byte moves to the shift register. -/
def txLoad (s : State) : State :=
  match s.txq, s.tsr with
  | b :: rest, none => { s with txq := rest, tsr := some { b := b, ok := s.configured } }
  | _, _ => s

/-- The symbol a frame leaves on the line (44_line_agents.md R151). -/
def InFlight.symbol (f : InFlight) : Symbol := if f.ok then .byte f.b else .garbled

/-- `TX_DONE` (44_line_agents.md R151): the byte in the shift register has gone out. -/
def txDone (s : State) : State :=
  match s.tsr with
  | some f => { s with txLine := s.txLine ++ [f.symbol], tsr := none }
  | none => s

/-- What the receiver makes of an arriving byte: itself while configured, a draw otherwise (44_line_agents.md R153). -/
def receivedByte (b : Byte) (s : State) : Byte := if s.configured then b else s.nextDraw

/-- The draw counter after an arrival: it counts the draw made while not configured. -/
def countArrivalDraw (s : State) : State := if s.configured then s else countDraw s

/-- `RX_ARRIVE(b)` (44_line_agents.md R153): the byte is recorded, and stored if the queue has room; otherwise `RX_OVERRUN` is
raised and the queue is unchanged. -/
def rxArrive (b : Byte) (s : State) : State :=
  let t := countArrivalDraw { s with rxLine := s.rxLine ++ [b] }
  if s.rxq.length < s.capRx then { t with rxq := s.rxq ++ [receivedByte b s] } else raiseRxOverrun b t

end Sys2Proof.Machine
end

