-- ==== Sys2Proof/Machine/Operands.lean ====
section
/-! DEFINITION. Operand assembly and the arithmetic of the composite operations: the divisor and its split, the assembled
ready-count and its comparison, the masks of the probes, the window of the block and the words of the initialisation
(30_encoding.md R76, 43_init.md R141 to R144, R148). -/

namespace Sys2Proof.Machine

/-- `(v & 0x20) != 0` (41_link_state_probe.md R120). -/
def threBit (v : Byte) : Bool := v &&& 0x20 != 0

/-- `(v & 0x01) != 0` (41_link_state_probe.md R123). -/
def drBit (v : Byte) : Bool := v &&& 0x01 != 0

/-- `hi * 256 + lo` (41_link_state_probe.md R121). -/
def countOf (hi lo : Byte) : Nat := hi.toNat * 256 + lo.toNat

/-- `count >= 8` (41_link_state_probe.md R121). -/
def countReady (hi lo : Byte) : Bool := decide (txReadyMin ≤ countOf hi lo)

/-- `divisor = frequency / (baud * 16)`, on naturals (43_init.md R141). -/
def initDivisor (frequency baud : Nat) : Nat := frequency / (baud * 16)

/-- The divisor `UART_INIT` writes, or `none` where it is refused: `baud = 0`, or a quotient outside 1 to 65535
(43_init.md R144). -/
def divisorOperand (frequency baud : Nat) : Option (BitVec 16) :=
  if baud = 0 then none
  else if initDivisor frequency baud = 0 then none
  else if 65535 < initDivisor frequency baud then none
  else some (BitVec.ofNat 16 (initDivisor frequency baud))

/-- `divisor[7:0]` (43_init.md R142). -/
def divisorLowByte (d : BitVec 16) : Byte := d.extractLsb' 0 8

/-- `divisor[15:8]` (43_init.md R142). -/
def divisorHighByte (d : BitVec 16) : Byte := d.extractLsb' 8 8

/-- The number of bytes an access moves. -/
def Width.bytes : Width → Nat
  | .byte => 1
  | .half => 2
  | .word => 4
  | .double => 8

/-- Some byte of an access of `n` bytes at `addr` lies in `UART_BASE` to `UART_BASE + 31` (40_register_access.md R112). -/
def touchesWindow (p : Platform) (addr n : Nat) : Bool :=
  decide (p.uartBase < addr + n) && decide (addr < p.uartBase + 32)

/-- `addr - UART_BASE`, for an address in the window (00_scope.md R11). -/
def offsetOf (p : Platform) (addr : Nat) : Offset := BitVec.ofNat 5 (addr - p.uartBase)

/-- The word each step of the initialisation writes (43_init.md R140, R143). -/
def initWord (p : Platform) (d : BitVec 16) : InitStep → TWord
  | .disableInterrupts => writeWord 4#5 0x00
  | .setLatch => writeWord 12#5 0x80
  | .divisorLow => writeWord 0#5 (divisorLowByte d)
  | .divisorHigh => writeWord 4#5 (divisorHighByte d)
  | .clearLatch => writeWord 12#5 0x03
  | .fifoInit => writeWord 8#5 p.fcrInit
  | .autoflow => writeWord 16#5 0x20

/-- The position after each step of the initialisation (43_init.md R140). -/
def initNext (d : BitVec 16) : InitStep → SeqState
  | .disableInterrupts => .init .setLatch d
  | .setLatch => .init .divisorLow d
  | .divisorLow => .init .divisorHigh d
  | .divisorHigh => .init .clearLatch d
  | .clearLatch => .init .fifoInit d
  | .fifoInit => .init .autoflow d
  | .autoflow => .idle

end Sys2Proof.Machine
end

