-- ==== Sys2Proof/Machine/Sequencer.lean ====
section
/-! DEFINITION. The host's sequencer: the bus access primitives, the expansions of the composite operations with their
`seq` transitions, and one move of one agent (30_encoding.md R80, 41_link_state_probe.md, 42_transceiver.md R134,
43_init.md R140). Every `yield` of the expansions is a boundary between two steps. -/

namespace Sys2Proof.Machine

/-! ## Bus access -/

/-- The host issues the word `t`: it is decoded in the present state and the operation it selects is performed
(30_encoding.md R72, R73). -/
def issue (t : TWord) (s : State) : Host.Outcome State Fault Refusal :=
  exec (decode s.platform s.latch t) s

/-- `BusRead(off)` (00_scope.md R11). -/
def busRead (off : Offset) (s : State) : Host.Outcome State Fault Refusal := issue (readWord off) s

/-- `BusWrite(off, d)` (00_scope.md R11). -/
def busWrite (off : Offset) (d : Byte) (s : State) : Host.Outcome State Fault Refusal := issue (writeWord off d) s

/-- What the host does once a bus operation has been performed; a stop stays a stop. -/
def andThen (o : Host.Outcome State Fault Refusal) (f : State → State) : Host.Outcome State Fault Refusal :=
  match o with
  | .next s => .next (f s)
  | .fault r => .fault r
  | .refused r => .refused r

/-- `MemRead(addr, n)` (00_scope.md R11): one byte in the window is a bus read, a wider access that touches it is refused and
returns `n` draws (40_register_access.md R112), and an access that misses it is not the block's (log 11). -/
def memRead (addr : Nat) (n : Width) (s : State) : Host.Outcome State Fault Refusal :=
  if touchesWindow s.platform addr n.bytes then
    match n with
    | .byte => busRead (offsetOf s.platform addr) s
    | .half | .word | .double => .next (returnDraws n.bytes (refuse .refWidth s))
  else .fault .outsideBlock

/-- `MemWrite(addr, n, v)` (00_scope.md R11, 40_register_access.md R112). -/
def memWrite (addr : Nat) (n : Width) (v : BitVec 64) (s : State) : Host.Outcome State Fault Refusal :=
  if touchesWindow s.platform addr n.bytes then
    match n with
    | .byte => busWrite (offsetOf s.platform addr) (v.extractLsb' 0 8) s
    | .half | .word | .double => .next (refuse .refWidth s)
  else .fault .outsideBlock

/-! ## Probes -/

/-- The first bus read of `TX_READY` (41_link_state_probe.md R120, R121): variant A is finished with it, variant B keeps the low
byte for the second read. -/
def txProbe (keepLow : Byte → SeqState) (finish : Bool → State → State) (s : State) : Host.Outcome State Fault Refusal :=
  match s.platform.probeTx with
  | .thre => andThen (busRead 20#5 s) (fun t => finish (threBit t.lastRead) t)
  | .count8 lo _ => andThen (busRead lo s) (fun t => { t with seq := keepLow t.lastRead })

/-- The second bus read of `TX_READY` variant B. A status-bit platform has no second read and never comes here; the probe is
then its one read (log 13). -/
def txProbeHi (lo : Byte) (finish : Bool → State → State) (s : State) : Host.Outcome State Fault Refusal :=
  match s.platform.probeTx with
  | .thre => andThen (busRead 20#5 s) (fun t => finish (threBit t.lastRead) t)
  | .count8 _ hi => andThen (busRead hi s) (fun t => finish (countReady t.lastRead lo) t)

/-- The one bus read of `RX_READY` (41_link_state_probe.md R123, R124). -/
def rxProbe (finish : Bool → State → State) (s : State) : Host.Outcome State Fault Refusal :=
  match s.platform.probeRx with
  | .dr => andThen (busRead 20#5 s) (fun t => finish (drBit t.lastRead) t)
  | .nonzero _ _ => andThen (busRead 0#5 s) (fun t => finish (t.lastRead != 0) t)

/-- A probe run by itself returns its boolean. -/
def finishTxReady (ready : Bool) (s : State) : State :=
  { s with seq := .idle, results := s.results ++ [.txReady ready] }

/-- A probe run by itself returns its boolean. -/
def finishRxReady (ready : Bool) (s : State) : State :=
  { s with seq := .idle, results := s.results ++ [.rxReady ready] }

/-- `SEND_WAIT` after a probe (42_transceiver.md R134). -/
def finishSendProbe (c : Byte) (ready : Bool) (s : State) : State :=
  { s with seq := if ready then .sendWrite c else .sendWait c }

/-- `POLL_PROBE` after the probe (42_transceiver.md R134). -/
def finishPollProbe (ready : Bool) (s : State) : State :=
  if ready then { s with seq := .pollRead } else { s with seq := .idle, results := s.results ++ [.polled none] }

/-- `POLL_READ` after the read: the result is `some(v)` (42_transceiver.md R134). -/
def finishPollRead (s : State) : State :=
  { s with seq := .idle, results := s.results ++ [.polled (some s.lastRead)] }

/-! ## The host's step -/

/-- The host issues the next operation of its program from `IDLE`: a bus operation is performed; a composite operation takes
its first position and performs no bus operation yet (42_transceiver.md R134; for the probes and `UART_INIT`, log 12);
`UART_INIT` with no legal divisor is refused and performs none (43_init.md R144). -/
def startOp (op : HostOp) (s : State) : Host.Outcome State Fault Refusal :=
  match op with
  | .transaction t => issue t s
  | .memRead addr n => memRead addr n s
  | .memWrite addr n v => memWrite addr n v s
  | .txReady => .next { s with seq := .txReady }
  | .rxReady => .next { s with seq := .rxReady }
  | .sendChar c => .next { s with seq := .sendWait c }
  | .pollChar => .next { s with seq := .pollProbe }
  | .uartInit frequency baud =>
    match divisorOperand frequency baud with
    | some d => .next { s with seq := .init .disableInterrupts d }
    | none => .next (refuse .refDivisor s)

/-- One step of the host: the next operation from `IDLE`, or the next bus operation of the composite it is in
(42_transceiver.md R134). With nothing left to issue the host does nothing (70_reset_and_hazards.md R205; log 2). -/
def hostStep (s : State) : Host.Outcome State Fault Refusal :=
  match s.seq with
  | .idle =>
    match s.program with
    | [] => .next s
    | op :: rest => startOp op { s with program := rest }
  | .txReady => txProbe .txReadyHi finishTxReady s
  | .txReadyHi lo => txProbeHi lo finishTxReady s
  | .rxReady => rxProbe finishRxReady s
  | .sendWait c => txProbe (.sendWaitHi c) (finishSendProbe c) s
  | .sendWaitHi c lo => txProbeHi lo (finishSendProbe c) s
  | .sendWrite c => andThen (busWrite 0#5 c s) (fun t => { t with seq := .idle })
  | .pollProbe => rxProbe finishPollProbe s
  | .pollRead => andThen (busRead 0#5 s) finishPollRead
  | .init k d => andThen (issue (initWord s.platform d k) s) (fun t => { t with seq := initNext d k })

/-! ## One move of one agent -/

/-- One atomic step of the agent that moves (00_scope.md R6, 60_exceptions.md R171). -/
def moveStep (m : Move) (s : State) : Host.Outcome State Fault Refusal :=
  match m with
  | .host => hostStep s
  | .txLoad => .next (txLoad s)
  | .txDone => .next (txDone s)
  | .rxArrive b => .next (rxArrive b s)

/-- The agent that moves next: the head of the schedule, or the host when the schedule is empty (log 1). -/
def State.nextMove (s : State) : Move := s.schedule.headD .host

/-- The state with the next move taken off the schedule. -/
def State.afterMove (s : State) : State := { s with schedule := s.schedule.tail }

end Sys2Proof.Machine
end

