-- ==== Sys2Proof/Machine/Step.lean ====
section
/-! DEFINITION. One step of the machine: the agent whose move is next takes one atomic step (20_memory.md R56, R62). -/

namespace Sys2Proof.Machine

/-- One step: the next move of the schedule is taken off it and made (log 1). -/
def step (s : State) : Host.Outcome State Fault Refusal := moveStep s.nextMove s.afterMove

/-- `s` with the word `w`, numbered as spec/opcode_table.json numbers it, where the next step takes its operation: the host's
program, with the host idle and next to move and the mode latch as the word's bit 14 asks (log 2, log 20). -/
def State.withFetchWord (s : State) (nbits w : Nat) : State :=
  placeTransaction (tableIssued (w % 2 ^ nbits)) (tableLatch (w % 2 ^ nbits)) s

end Sys2Proof.Machine
end

