-- ==== Sys2Proof/Safety.lean ====
section
/-! DEFINITION. What counts as a good run, the named premises of 70_reset_and_hazards.md R206, the machine's invariant, and
the executions a claim about every schedule speaks of. -/

namespace Sys2Proof.Machine

/-! ## Marks and the end of a run -/

/-- `NO_MARK`: none of the three sticky marks is set (70_reset_and_hazards.md R205, R206). -/
def State.noMark (s : State) : Bool := !s.txOverrun && !s.rxOverrun && s.refused.isNone

/-- The run has ended: the host has nothing left to issue and no step of the transmitter is enabled
(70_reset_and_hazards.md R205). -/
def State.runEnded (s : State) : Bool :=
  decide (s.seq = .idle) && s.program.isEmpty && s.txq.isEmpty && s.tsr.isNone

/-- The run has ended and is good (70_reset_and_hazards.md R205). -/
def State.goodRun (s : State) : Bool := s.runEnded && s.noMark

/-! ## Premises -/

/-- `AFTER_RESET`, for every platform and every value of the draws (70_reset_and_hazards.md R206), before a program and a
schedule are placed (log 1, log 2). -/
def AfterReset (s : State) : Prop := ∃ p d, s = State.resetWith p d

/-- `INIT_DONE` (70_reset_and_hazards.md R206). -/
def State.initDone (s : State) : Bool :=
  s.configured && s.fifoEn && !s.latch && s.tsr.isNone && s.txq.isEmpty && s.rxq.isEmpty

/-- The move is an arrival. -/
def Move.isArrival : Move → Bool
  | .rxArrive _ => true
  | .host => false
  | .txLoad => false
  | .txDone => false

/-- `QUIET_PEER`, over the moves of a run (70_reset_and_hazards.md R206). -/
def quietPeer (moves : List Move) : Bool := moves.all (fun m => !m.isArrival)

/-- `PEER_HONOURS_RTS`, at one move: nothing arrives while the receive queue is full (44_line_agents.md R157). -/
def peerHonoursRts (m : Move) (s : State) : Bool := !m.isArrival || decide (s.rxq.length < s.capRx)

/-- No byte of an access of `n` bytes at `addr` lies in the window `UART_BASE` to `UART_BASE + 31` (20_memory.md R59). -/
def AccessOutside (p : Platform) (addr n : Nat) : Prop := addr + n ≤ p.uartBase ∨ p.uartBase + 32 ≤ addr

/-- The next step is the host's, from `IDLE`, and its operation is a raw access none of whose bytes is in the window
(log 11). -/
def IssuesAccessOutside (s : State) : Prop :=
  s.nextMove = .host ∧ s.seq = .idle ∧ ∃ (addr : Nat) (n : Width) (rest : List HostOp),
    AccessOutside s.platform addr n.bytes ∧
      (s.program = .memRead addr n :: rest ∨ ∃ v, s.program = .memWrite addr n v :: rest)

/-! ## Runs over a chosen schedule -/

/-- The moves of `ms` made one after another, whatever the state's own schedule says; a stop ends the run. -/
def runMoves : List Move → State → Host.Outcome State Fault Refusal
  | [], s => .next s
  | m :: ms, s =>
    match moveStep m s with
    | .next t => runMoves ms t
    | .fault r => .fault r
    | .refused r => .refused r

/-- An endless execution: the states `σ` follow from one another by the moves `f`. -/
def Execution (f : Nat → Move) (σ : Nat → State) : Prop := ∀ n, moveStep (f n) (σ n) = .next (σ (n + 1))

/-- The host keeps moving (20_memory.md R62: the line agents take finitely many steps between two of the host's). -/
def HostMoves (f : Nat → Move) : Prop := ∀ n, ∃ m, n ≤ m ∧ f m = .host

/-- `TX_FAIR`: neither transmitter step is enabled for ever without being taken (44_line_agents.md R157). -/
def TxFair (f : Nat → Move) (σ : Nat → State) : Prop :=
  (∀ n, (∀ m, n ≤ m → txLoadEnabled (σ m) = true) → ∃ m, n ≤ m ∧ f m = .txLoad) ∧
    ∀ n, (∀ m, n ≤ m → txDoneEnabled (σ m) = true) → ∃ m, n ≤ m ∧ f m = .txDone

/-! ## The invariant -/

/-- The queues are within their capacities (10_state.md R48). -/
def QueuesFit (s : State) : Prop := s.txq.length ≤ s.capTx ∧ s.rxq.length ≤ s.capRx

/-- `lo` was the low byte of the free space at an earlier moment of the same probe, and the space has only grown since
(41_link_state_probe.md R122). -/
def LowByteOfEarlierSpace (lo : Byte) (s : State) : Prop :=
  ∃ n, n ≤ s.txFree ∧ n < 65536 ∧ lo = BitVec.ofNat 8 n

/-- What a true `TX_READY` has established by the write that follows (41_link_state_probe.md R127). -/
def RoomForWrite (s : State) : Prop :=
  match s.platform.probeTx with
  | .thre => s.txq = []
  | .count8 _ _ => txReadyMin ≤ s.txFree

/-- What the initialisation has already written when it stands at a step (43_init.md R140). -/
def InitProgress (k : InitStep) (d : BitVec 16) (s : State) : Prop :=
  match k with
  | .disableInterrupts => True
  | .setLatch => True
  | .divisorLow => s.lcr = 0x80
  | .divisorHigh => s.lcr = 0x80 ∧ s.dll = divisorLowByte d
  | .clearLatch => s.dll = divisorLowByte d ∧ s.dlh = divisorHighByte d
  | .fifoInit => s.lcr = 0x03 ∧ s.dll = divisorLowByte d ∧ s.dlh = divisorHighByte d
  | .autoflow =>
    s.lcr = 0x03 ∧ s.dll = divisorLowByte d ∧ s.dlh = divisorHighByte d ∧ s.fcr = s.platform.fcrInit ∧
      s.fifoEn = true ∧ s.txq = []

/-- What holds of the block at the host's position in a composite operation. -/
def SeqFacts (s : State) : Prop :=
  match s.seq with
  | .txReadyHi lo => LowByteOfEarlierSpace lo s
  | .sendWaitHi _ lo => LowByteOfEarlierSpace lo s
  | .sendWrite _ => RoomForWrite s
  | .pollRead => s.platform.probeRx = .dr → s.rxq ≠ []
  | .init k d => d ≠ 0 ∧ InitProgress k d s
  | .idle => True
  | .txReady => True
  | .rxReady => True
  | .sendWait _ => True
  | .pollProbe => True

/-- The invariant every step keeps: a legal platform whose ready-count fits its 16 bits (log 7), queues within their
capacities, and the facts of the host's position. -/
structure Consistent (s : State) : Prop where
  /-- the platform's parameters are legal -/
  platform : s.platform.wf = true
  /-- the ready-count fits 16 bits -/
  depth : s.platform.txDepth < 65536
  /-- the queues are within their capacities -/
  queues : QueuesFit s
  /-- the facts of the host's position -/
  seq : SeqFacts s

/-! ## The stream of bytes on their way out -/

/-- What has gone out and what is on its way, in order: the line, the shift register, the queue (44_line_agents.md R158). -/
def outStream (s : State) : List Symbol :=
  s.txLine ++ s.tsr.toList.map InFlight.symbol ++ s.txq.map Symbol.byte

/-- `b` stands where `a` stood: the same symbol, or damaged on the way. -/
def Symbol.keptOrGarbled (a b : Symbol) : Prop := b = a ∨ b = .garbled

end Sys2Proof.Machine
end

