-- ==== Sys2Proof/Certificates/Slice0/Obligations.lean ====
section
/-! DEFINITION. The statements made of the model. Each docstring names the rule of spec/ it formalises; where a clause rests on
one of the spec's own marked decisions (92_eei_decisions.md) or on a choice of this model (a log entry), it says which.
A bus operation's statement gives its whole next state, so it is at once its result, its frame and its completion. -/

open Sys2Proof Sys2Proof.Machine

/-! ## Decoding -/

/-- When the host is next to move, idle, and `t` is next in its program, a step is the operation `t` decodes to in the present
state, with `t` taken off the program and the move off the schedule (30_encoding.md R72, R73; model: log 1, log 2). -/
def Obligations.StepRunsDecodedOperation : Prop :=
  ∀ (s : State) (t : TWord) (rest : List HostOp),
    s.nextMove = .host → s.seq = .idle → s.program = .transaction t :: rest →
    step s = exec (decode s.platform s.latch t) { s with program := rest, schedule := s.schedule.tail }

/-- Words written out from the map of 30_encoding.md R73, in the two banks where the latch matters (vectors E1 to E21 of
95_test_vectors.md), on every platform. -/
def Obligations.SpecWordsDecode : Prop :=
  ∀ p : Platform,
    decode p false 0x8041 = .thrWrite 0x41 ∧ decode p true 0x8041 = .dllWrite 0x41 ∧
    decode p false 0x0000 = .rbrRead ∧ decode p true 0x0000 = .dllRead ∧
    decode p false 0x8400 = .ierWrite 0 ∧ decode p true 0x8400 = .dlhWrite 0 ∧
    decode p false 0x0400 = .ierRead ∧ decode p true 0x0400 = .dlhRead ∧
    decode p true 0x1400 = .lsrRead ∧ decode p true 0x8C80 = .lcrWrite 0x80 ∧
    decode p false 0x0C00 = .lcrRead ∧ decode p false 0x88C7 = .fcrWrite 0xC7 ∧
    decode p false 0x9020 = .mcrWrite 0x20 ∧ decode p false 0x1000 = .mcrRead ∧
    decode p false 0x0800 = .off8Read ∧ decode p false 0x9400 = .lsrWrite 0 ∧
    decode p false 0x9800 = .reservedOffset true 24 0 ∧ decode p false 0x9F55 = .reservedOffset true 31 0x55 ∧
    decode p false 0x2000 = .badWord 0x2000 ∧ decode p false 0x4000 = .badWord 0x4000 ∧
    decode p false 0x1401 = .badWord 0x1401

/-- Every well-formed instruction, with every operand, is read back from its word in its bank, on every legal platform
(30_encoding.md R71 to R74). -/
def Obligations.DecodeOfEncodeIsTheInstruction : Prop :=
  ∀ (p : Platform) (latch : Bool) (i : Instr),
    p.wf = true → i.wf p = true → i.inBank latch = true → decode p latch (encode p i) = i

/-- Every 16-bit word decodes, in either bank, to a well-formed instruction of that bank, and that instruction's word is the
word itself: no bit of a word is dropped and decoding is total (30_encoding.md R71 to R73). -/
def Obligations.EncodeOfDecodeIsTheWord : Prop :=
  ∀ (p : Platform) (latch : Bool) (t : TWord), p.wf = true →
    encode p (decode p latch t) = t ∧ (decode p latch t).wf p = true ∧ (decode p latch t).inBank latch = true

/-- A row claims a decode word exactly when `(X & mask) = match`, and the sixteen rows of the mapped offsets carry the `match`
and `mask` columns of 30_encoding.md R73 in its order. -/
def Obligations.RowsTestMaskAndMatch : Prop :=
  (∀ (r : DecodeRow) (x : TWord), r.hits x = ((x &&& r.mask) == r.pattern)) ∧
    fixedRows.map (fun r => (r.pattern, r.mask)) =
      [(0x0000, 0xFF00), (0x8000, 0xFF00), (0x4000, 0xFF00), (0xC000, 0xFF00),
       (0x0400, 0xFF00), (0x8400, 0xFF00), (0x4400, 0xFF00), (0xC400, 0xFF00),
       (0x8800, 0xBF00), (0x0800, 0xBF00), (0x0C00, 0xBF00), (0x8C00, 0xBF00),
       (0x1000, 0xBF00), (0x9000, 0xBF00), (0x1400, 0xBF00), (0x9400, 0xBF00)]

/-- The bank rule: the same word reaches different registers in the two banks, performing it leaves the registers of the bank
not selected unread and unchanged (they come out as they were, and what else the operation does is the same whatever they
hold: the one update shown names none of them) (40_register_access.md R98). -/
def Obligations.BankSelectsTheRegister : Prop :=
  (∀ (p : Platform) (d : Byte),
    decode p false (writeWord 0 d) = .thrWrite d ∧ decode p true (writeWord 0 d) = .dllWrite d ∧
    decode p false (writeWord 4 d) = .ierWrite d ∧ decode p true (writeWord 4 d) = .dlhWrite d ∧
    decode p false (readWord 0) = .rbrRead ∧ decode p true (readWord 0) = .dllRead ∧
    decode p false (readWord 4) = .ierRead ∧ decode p true (readWord 4) = .dlhRead) ∧
  ∀ (s : State) (t : TWord), t.isTransaction = true → (t.offset = 0 ∨ t.offset = 4) →
    (s.latch = false → ∀ dll dlh : Byte, ∃ r : State,
      issue t s = .next r ∧ issue t { s with dll := dll, dlh := dlh } = .next { r with dll := dll, dlh := dlh } ∧
        r.dll = s.dll ∧ r.dlh = s.dlh) ∧
    (s.latch = true → ∀ (ier : Byte) (txq rxq : List Byte), ∃ r : State,
      issue t s = .next r ∧
        issue t { s with ier := ier, txq := txq, rxq := rxq } = .next { r with ier := ier, txq := txq, rxq := rxq } ∧
        r.ier = s.ier ∧ r.txq = s.txq ∧ r.rxq = s.rxq)

/-- At every offset but 0 and 4 the latch plays no part in decoding (30_encoding.md R70). -/
def Obligations.LatchMattersOnlyAtOffsetsZeroAndFour : Prop :=
  ∀ (p : Platform) (t : TWord), t.offset ≠ 0 → t.offset ≠ 4 → decode p false t = decode p true t

/-- A word with bit 13 set, issued with bit 14 set, or a read with data decodes to `BAD_WORD` and no other word does;
performing it sets the mark with reason `REF_WORD`, keeping an earlier reason, and changes nothing else (30_encoding.md
R71, decision D21; that no byte is returned is the model's choice, log 10). -/
def Obligations.MalformedWordsAreRefused : Prop :=
  (∀ (p : Platform) (latch : Bool) (t : TWord),
    decode p latch t = .badWord t ↔
      (t.getLsbD 13 = true ∨ t.getLsbD 14 = true ∨ (t.getLsbD 15 = false ∧ t.extractLsb' 0 8 ≠ 0))) ∧
  ∀ (t : TWord) (s : State),
    exec (.badWord t) s = .next { s with refused := s.refused.or (some .refWord) }

/-! ## Offset 0 -/

/-- `RBR_READ` from a queue that holds a byte returns the oldest byte and removes it if `RX_READ_POPS`; from an empty queue it
returns `RX_EMPTY_VALUE`, or a draw, and changes nothing (40_register_access.md R90, decision D10; the draw is the free
value of log 6). -/
def Obligations.RbrReadResult : Prop :=
  (∀ (s : State) (v : Byte) (rest : List Byte), s.rxq = v :: rest →
    exec .rbrRead s = .next
      { s with rxq := if s.platform.rxReadPops then rest else s.rxq, reads := s.reads ++ [v] }) ∧
  ∀ s : State, s.rxq = [] →
    exec .rbrRead s = .next
      (match s.platform.rxEmptyValue with
      | some v => { s with reads := s.reads ++ [v] }
      | none => { s with reads := s.reads ++ [Config.freeByte s.draws], draws := s.draws + 1 })

/-- `THR_WRITE d` appends the byte to a transmit queue with room; to a full one it raises `TX_OVERRUN`, records the byte, and
leaves the queue as it was (40_register_access.md R91, decision D9; the record: log 9). -/
def Obligations.ThrWriteResult : Prop :=
  ∀ (s : State) (d : Byte),
    (s.txq.length < s.capTx → exec (.thrWrite d) s = .next { s with txq := s.txq ++ [d] }) ∧
    (s.capTx ≤ s.txq.length →
      exec (.thrWrite d) s = .next { s with txOverrun := true, txLost := s.txLost ++ [d] })

/-- `DLL_READ` (offset 0) and `DLH_READ` (offset 4), latch set: each returns its register and changes nothing else
(40_register_access.md R92, R96). -/
def Obligations.DivisorByteReads : Prop :=
  (∀ p : Platform, decode p true 0x0000 = .dllRead ∧ decode p true 0x0400 = .dlhRead) ∧
  ∀ s : State,
    exec .dllRead s = .next { s with reads := s.reads ++ [s.dll] } ∧
    exec .dlhRead s = .next { s with reads := s.reads ++ [s.dlh] }

/-- `DLL_WRITE d` and `DLH_WRITE d`, latch set: each stores the byte, and a byte in the shift register is damaged exactly when
the value written differs from the value stored; nothing else changes (40_register_access.md R93, R97). -/
def Obligations.DivisorByteWrites : Prop :=
  (∀ (p : Platform) (d : Byte),
    decode p true (0x80#8 ++ d) = .dllWrite d ∧ decode p true (0x84#8 ++ d) = .dlhWrite d) ∧
  ∀ (s : State) (d : Byte),
    exec (.dllWrite d) s = .next
      { s with dll := d, tsr := if d = s.dll then s.tsr else s.tsr.map (fun f => { f with ok := false }) } ∧
    exec (.dlhWrite d) s = .next
      { s with dlh := d, tsr := if d = s.dlh then s.tsr else s.tsr.map (fun f => { f with ok := false }) }

/-! ## Offsets 4, 8, 12 and 16 -/

/-- `IER_WRITE d`, latch clear, stores the byte and changes nothing else (40_register_access.md R95). -/
def Obligations.IerWriteResult : Prop :=
  (∀ (p : Platform) (d : Byte), decode p false (0x84#8 ++ d) = .ierWrite d) ∧
  ∀ (s : State) (d : Byte), exec (.ierWrite d) s = .next { s with ier := d }

/-- `IER_READ`, `LCR_READ` and `MCR_READ` return the register as stored and change nothing else (40_register_access.md R94,
R102, R104: read-back is the spec's decision D14, D15, D16). -/
def Obligations.ControlRegisterReads : Prop :=
  ∀ s : State,
    exec .ierRead s = .next { s with reads := s.reads ++ [s.ier] } ∧
    exec .lcrRead s = .next { s with reads := s.reads ++ [s.lcr] } ∧
    exec .mcrRead s = .next { s with reads := s.reads ++ [s.mcr] }

/-- `FCR_WRITE`: `FCR_INIT` is stored, enables the FIFOs and empties both queues, and leaves everything else (the byte in
flight and the marks among it); any other value is refused and changes nothing else (40_register_access.md R100,
decision D6). -/
def Obligations.FcrWriteResult : Prop :=
  ∀ (s : State) (d : Byte),
    (d = s.platform.fcrInit →
      exec (.fcrWrite d) s = .next { s with fcr := d, fifoEn := true, txq := [], rxq := [] }) ∧
    (d ≠ s.platform.fcrInit →
      exec (.fcrWrite d) s = .next { s with refused := s.refused.or (some .refFcrValue) })

/-- `LCR_WRITE d`, in either bank, stores the byte, whose bit 7 is the mode latch from then on, and damages a byte in flight
exactly when the value changes; the queues, DLL, DLH and IER keep their values (40_register_access.md R103). -/
def Obligations.LcrWriteResult : Prop :=
  (∀ (p : Platform) (latch : Bool) (d : Byte), decode p latch (0x8C#8 ++ d) = .lcrWrite d) ∧
  ∀ (s : State) (d : Byte), ∃ t : State,
    exec (.lcrWrite d) s = .next t ∧ t.latch = d.getLsbD 7 ∧
      t = { s with lcr := d, tsr := if d = s.lcr then s.tsr else s.tsr.map (fun f => { f with ok := false }) }

/-- `MCR_WRITE d`, in either bank, stores the byte and damages a byte in flight exactly when the value changes
(40_register_access.md R105). -/
def Obligations.McrWriteResult : Prop :=
  (∀ (p : Platform) (latch : Bool) (d : Byte), decode p latch (0x90#8 ++ d) = .mcrWrite d) ∧
  ∀ (s : State) (d : Byte),
    exec (.mcrWrite d) s = .next
      { s with mcr := d, tsr := if d = s.mcr then s.tsr else s.tsr.map (fun f => { f with ok := false }) }

/-- A write is in force for the very next access: a write of LCR selects the bank of the next operation at offsets 0 and 4, a
register reads back what was written to it, and a byte accepted by THR makes the next LSR read show bit 5 clear
(20_memory.md R61, R65; read-back is the spec's decision D14, D15, D16, D18; the draw of LSR is the free value of log 6). -/
def Obligations.WritesAreInForceAtOnce : Prop :=
  (∀ (s : State) (d e : Byte), ∃ t : State, busWrite 12#5 d s = .next t ∧
    busWrite 0#5 e t = exec (if d.getLsbD 7 then .dllWrite e else .thrWrite e) t ∧
    busWrite 4#5 e t = exec (if d.getLsbD 7 then .dlhWrite e else .ierWrite e) t ∧
    busRead 0#5 t = exec (if d.getLsbD 7 then .dllRead else .rbrRead) t ∧
    busRead 4#5 t = exec (if d.getLsbD 7 then .dlhRead else .ierRead) t) ∧
  (∀ (s : State) (d : Byte),
    (∃ t : State, exec (.ierWrite d) s = .next t ∧ exec .ierRead t = .next { t with reads := s.reads ++ [d] }) ∧
    (∃ t : State, exec (.lcrWrite d) s = .next t ∧ exec .lcrRead t = .next { t with reads := s.reads ++ [d] }) ∧
    (∃ t : State, exec (.mcrWrite d) s = .next t ∧ exec .mcrRead t = .next { t with reads := s.reads ++ [d] }) ∧
    (∃ t : State, exec (.dllWrite d) s = .next t ∧ exec .dllRead t = .next { t with reads := s.reads ++ [d] }) ∧
    ∃ t : State, exec (.dlhWrite d) s = .next t ∧ exec .dlhRead t = .next { t with reads := s.reads ++ [d] }) ∧
  ∀ (s : State) (d : Byte), s.txq.length < s.capTx → ∃ (t u : State) (v : Byte),
    exec (.thrWrite d) s = .next t ∧ exec .lsrRead t = .next u ∧ u.reads = s.reads ++ [v] ∧ v.getLsbD 5 = false

/-! ## Offset 20 and the ready-count -/

/-- `LSR_READ` returns one byte `v` and changes no state of the block (only the draw counter and the bytes returned move):
bit 0 of `v` says whether the receive queue holds a byte, bit 5 whether the transmit queue is empty, and the other six bits
are those of the draw (40_register_access.md R107, decisions D7, D8, D12; the draw is the free value of log 6). -/
def Obligations.LsrReadResult : Prop :=
  ∀ s : State, ∃ v : Byte,
    exec .lsrRead s = .next { s with reads := s.reads ++ [v], draws := s.draws + 1 } ∧
      (v.getLsbD 0 = true ↔ s.rxq ≠ []) ∧ (v.getLsbD 5 = true ↔ s.txq = []) ∧
      ∀ k, k ≠ 0 → k ≠ 5 → v.getLsbD k = (Config.freeByte s.draws).getLsbD k

/-- `TXCNT_LO_READ` and `TXCNT_HI_READ` return the two bytes of one 16-bit value and change nothing else; while the free space
fits 16 bits that value is the number of entries the transmit queue can still accept (40_register_access.md R109, R110,
decision D19; above 16 bits the value is free, log 7). -/
def Obligations.TxcntReads : Prop :=
  ∀ s : State, ∃ lo hi : Byte,
    exec .txcntLoRead s = .next { s with reads := s.reads ++ [lo] } ∧
    exec .txcntHiRead s = .next { s with reads := s.reads ++ [hi] } ∧
    (s.capTx - s.txq.length < 65536 → hi.toNat * 256 + lo.toNat = s.capTx - s.txq.length)

/-! ## Refused operations, raw accesses and the marks -/

/-- `OFF8_READ`, `LSR_WRITE` and `RESERVED_OFFSET`: each completes, sets the refusal mark (which keeps an earlier reason), and
changes no register; the two reads among them return a draw (40_register_access.md R101, R108, R111, R113, decisions D2 and
D13; the draw is the free value of log 6). -/
def Obligations.RefusedOperationsResult : Prop :=
  ∀ (s : State) (off : Offset) (d : Byte),
    exec .off8Read s = .next
      { s with refused := s.refused.or (some .refOff8Read), reads := s.reads ++ [Config.freeByte s.draws],
               draws := s.draws + 1 } ∧
    exec (.lsrWrite d) s = .next { s with refused := s.refused.or (some .refLsrWrite) } ∧
    exec (.reservedOffset true off d) s = .next { s with refused := s.refused.or (some .refOffset) } ∧
    exec (.reservedOffset false off d) s = .next
      { s with refused := s.refused.or (some .refOffset), reads := s.reads ++ [Config.freeByte s.draws],
               draws := s.draws + 1 }

/-- Every bus operation completes: whatever the state and the operation, there is a next state (60_exceptions.md R165). -/
def Obligations.EveryBusOperationCompletes : Prop :=
  ∀ (i : Instr) (s : State), ∃ t : State, exec i s = .next t

/-- `MemRead` and `MemWrite` of one byte in the window are `BusRead` and `BusWrite` of the offset; of 2, 4 or 8 bytes, with any
byte in the window, they are refused with `REF_WIDTH`: a write changes nothing else, a read appends as many bytes to what
the host was given as the access has, and no register and no queue changes (20_memory.md R52, R55; 40_register_access.md
R112, decision D3; a raw write carries 64 bits, of which one byte uses the low one: log 23; the bytes a refused read
returns are draws, log 6). -/
def Obligations.RawAccessesInTheWindow : Prop :=
  (∀ (s : State) (off : Offset) (v : BitVec 64),
    memRead (s.platform.uartBase + off.toNat) .byte s = busRead off s ∧
    memWrite (s.platform.uartBase + off.toNat) .byte v s = busWrite off (v.extractLsb' 0 8) s) ∧
  ∀ (s : State) (addr : Nat) (n : Width) (v : BitVec 64), n ≠ .byte →
    s.platform.uartBase < addr + n.bytes → addr < s.platform.uartBase + 32 →
    memWrite addr n v s = .next { s with refused := s.refused.or (some .refWidth) } ∧
    ∃ bytes : List Byte, bytes.length = n.bytes ∧
      memRead addr n s = .next
        { s with refused := s.refused.or (some .refWidth), reads := s.reads ++ bytes, draws := s.draws + n.bytes }

/-- A step stops the machine exactly when the host, from `IDLE`, issues a raw access none of whose bytes is in the window: that
step stops, with `outsideBlock`, and every other step has a next state (the model's choice, log 11; no bus access fails,
20_memory.md R52). -/
def Obligations.StepStopsOnlyOutsideTheBlock : Prop :=
  ∀ s : State,
    (IssuesAccessOutside s → step s = .fault .outsideBlock) ∧
    (¬ IssuesAccessOutside s → ∃ t : State, step s = .next t)

/-- What each bus operation may write: a register changes only by its own write, the FCR pair only by `FCR_WRITE`, the
transmit queue only by `THR_WRITE` and `FCR_WRITE`, the receive queue only by `RBR_READ` and `FCR_WRITE`, the shift register
only by the four configuration writes, the transmit fault only by `THR_WRITE`, the refusal mark only by `FCR_WRITE` and the
refused operations, what the host was given only by a read, and the draw counter only by the four reads that can draw; no
bus operation touches the traces, the receive fault, the platform, the host's position, its results, its program or the
schedule (40_register_access.md, "Common to all"; the record of reads: log 8, the draw counter: log 6, `BAD_WORD` returns no
byte: log 10). -/
def Obligations.OperationsChangeOnlyWhatTheyName : Prop :=
  ∀ (i : Instr) (s t : State), exec i s = .next t →
    ((∀ d, i ≠ .ierWrite d) → t.ier = s.ier) ∧
    ((∀ d, i ≠ .lcrWrite d) → t.lcr = s.lcr) ∧
    ((∀ d, i ≠ .mcrWrite d) → t.mcr = s.mcr) ∧
    ((∀ d, i ≠ .dllWrite d) → t.dll = s.dll) ∧
    ((∀ d, i ≠ .dlhWrite d) → t.dlh = s.dlh) ∧
    ((∀ d, i ≠ .fcrWrite d) → t.fcr = s.fcr ∧ t.fifoEn = s.fifoEn) ∧
    ((∀ d, i ≠ .thrWrite d) → (∀ d, i ≠ .fcrWrite d) → t.txq = s.txq) ∧
    ((∀ d, i ≠ .thrWrite d) → t.txOverrun = s.txOverrun ∧ t.txLost = s.txLost) ∧
    (i ≠ .rbrRead → (∀ d, i ≠ .fcrWrite d) → t.rxq = s.rxq) ∧
    ((∀ d, i ≠ .lcrWrite d) → (∀ d, i ≠ .mcrWrite d) → (∀ d, i ≠ .dllWrite d) → (∀ d, i ≠ .dlhWrite d) →
      t.tsr = s.tsr) ∧
    ((∀ d, i ≠ .fcrWrite d) → i ≠ .off8Read → (∀ d, i ≠ .lsrWrite d) → (∀ w off d, i ≠ .reservedOffset w off d) →
      (∀ x, i ≠ .badWord x) → t.refused = s.refused) ∧
    (i ∉ [.rbrRead, .dllRead, .ierRead, .dlhRead, .off8Read, .lcrRead, .mcrRead, .lsrRead, .txcntLoRead, .txcntHiRead] →
      (∀ off d, i ≠ .reservedOffset false off d) → t.reads = s.reads) ∧
    (i ∉ [.rbrRead, .off8Read, .lsrRead] → (∀ off d, i ≠ .reservedOffset false off d) → t.draws = s.draws) ∧
    t.txLine = s.txLine ∧ t.rxLine = s.rxLine ∧ t.rxOverrun = s.rxOverrun ∧ t.rxLost = s.rxLost ∧
    t.platform = s.platform ∧ t.seq = s.seq ∧ t.results = s.results ∧ t.program = s.program ∧ t.schedule = s.schedule

/-- Marks are sticky and the traces only grow: a step never clears a fault mark, keeps the first reason of a refusal, and
extends the two line traces and what the host has been given at their ends; the platform never changes (10_state.md R45,
R48; 60_exceptions.md R173, decision D27; log 3). -/
def Obligations.MarksStickAndTracesGrow : Prop :=
  ∀ s t : State, step s = .next t →
    (s.txOverrun = true → t.txOverrun = true) ∧ (s.rxOverrun = true → t.rxOverrun = true) ∧
    (∀ r, s.refused = some r → t.refused = some r) ∧
    s.txLine <+: t.txLine ∧ s.rxLine <+: t.rxLine ∧ s.reads <+: t.reads ∧ s.results <+: t.results ∧
    s.txLost <+: t.txLost ∧ s.rxLost <+: t.rxLost ∧ t.platform = s.platform

/-- One bus operation raises at most one mark, it is never the receiver's, and an operation that newly sets the refusal mark
touches nothing else of the block: only the byte returned and its draw move (60_exceptions.md R171, R172, decision D23;
40_register_access.md R113). -/
def Obligations.OneOperationRaisesAtMostOneMark : Prop :=
  ∀ (i : Instr) (s t : State), exec i s = .next t →
    (t.txOverrun = s.txOverrun ∨ t.refused = s.refused) ∧ t.rxOverrun = s.rxOverrun ∧
    (t.refused ≠ s.refused → t = { s with refused := t.refused, reads := t.reads, draws := t.draws })

/-! ## Reset and the invariant -/

/-- What reset leaves, for every platform and every value of the draws: both queues, the shift register and the traces empty,
the marks clear, the host idle; LSR would read bit 0 clear and bit 5 set, and TXCNT the whole capacity; the registers hold
their draws. The fixed `State.reset` is one of these states, on a legal platform (10_state.md R49, decision D4; the values
of the fixed one are the model's, log 4 and log 5). -/
def Obligations.ResetState : Prop :=
  (∀ (p : Platform) (d : ResetDraws),
    let s := State.resetWith p d
    s.txq = [] ∧ s.rxq = [] ∧ s.tsr = none ∧ s.txLine = [] ∧ s.rxLine = [] ∧ s.noMark = true ∧ s.seq = .idle ∧
    s.dr = false ∧ s.thre = true ∧ s.txFree = s.capTx ∧
    s.ier = d.ier ∧ s.fcr = d.fcr ∧ s.fifoEn = d.fifoEn ∧ s.lcr = d.lcr ∧ s.mcr = d.mcr ∧ s.dll = d.dll ∧ s.dlh = d.dlh) ∧
  AfterReset State.reset ∧ State.reset.platform.wf = true

/-- The invariant holds after reset, on every legal platform whose depth fits 16 bits and for every value of the draws
(10_state.md R48, R49). -/
def Obligations.ResetMeetsTheInvariant : Prop :=
  (∀ (p : Platform) (d : ResetDraws), p.wf = true → p.txDepth < 65536 → Consistent (State.resetWith p d)) ∧ Consistent State.reset

/-- Every step of every agent, and so every step of the machine, keeps the invariant: the queues stay within their capacities;
the low count byte a probe has read is that of an earlier, smaller space; a character is written only when the probe has
established room for it; a poll reads only a queue that holds a byte (status-bit platform); and the initialisation has
written what its position says (10_state.md R48; 41_link_state_probe.md R122, R127; 42_transceiver.md R132;
43_init.md R140). -/
def Obligations.EveryMoveKeepsTheInvariant : Prop :=
  (∀ (m : Move) (s t : State), Consistent s → moveStep m s = .next t → Consistent t) ∧
  ∀ s t : State, Consistent s → step s = .next t → Consistent t

/-! ## The line side -/

/-- `TX_LOAD`: the oldest queued byte moves to the shift register, with the flag `configured` evaluated now; where it is not
enabled nothing happens. `TX_DONE`: the byte goes out as itself, or as `garbled` when its flag was lowered; where it is not
enabled nothing happens (44_line_agents.md R150, R151, decision D25; the disabled moves: log 1). -/
def Obligations.TransmitterSteps : Prop :=
  (∀ (s : State) (b : Byte) (rest : List Byte), s.txq = b :: rest → s.tsr = none →
    moveStep .txLoad s = .next
      { s with txq := rest,
               tsr := some { b := b, ok := decide (s.lcr = 0x03 ∧ s.mcr = 0x20 ∧ (s.dlh ++ s.dll : BitVec 16) ≠ 0) } }) ∧
  (∀ s : State, (s.txq = [] ∨ s.tsr ≠ none) → moveStep .txLoad s = .next s) ∧
  (∀ (s : State) (b : Byte) (ok : Bool), s.tsr = some { b := b, ok := ok } →
    moveStep .txDone s = .next
      { s with txLine := s.txLine ++ [if ok then Symbol.byte b else .garbled], tsr := none }) ∧
  ∀ s : State, s.tsr = none → moveStep .txDone s = .next s

/-- `RX_ARRIVE(b)`: the byte is recorded in the receive trace; with room it is stored, as itself when the block is configured
and as a draw otherwise; without room `RX_OVERRUN` is raised and the queue is unchanged (44_line_agents.md R153,
decision D11; the draw is the free value of log 6, the record log 9). -/
def Obligations.ReceiverStep : Prop :=
  ∀ (s : State) (b : Byte),
    (s.configured = true → s.rxq.length < s.capRx →
      moveStep (.rxArrive b) s = .next { s with rxLine := s.rxLine ++ [b], rxq := s.rxq ++ [b] }) ∧
    (s.configured = false → s.rxq.length < s.capRx →
      moveStep (.rxArrive b) s = .next
        { s with rxLine := s.rxLine ++ [b], rxq := s.rxq ++ [Config.freeByte s.draws], draws := s.draws + 1 }) ∧
    (s.capRx ≤ s.rxq.length →
      moveStep (.rxArrive b) s = .next
        { s with rxLine := s.rxLine ++ [b], rxOverrun := true, rxLost := s.rxLost ++ [b],
                 draws := if s.configured then s.draws else s.draws + 1 })

/-- No step of the transmitter or the receiver reaches a register, what the host was given, or the host's program and
position (20_memory.md R50, 44_line_agents.md R159). -/
def Obligations.LineAgentsReachNoRegister : Prop :=
  ∀ (m : Move) (s t : State), m ≠ .host → moveStep m s = .next t →
    t.ier = s.ier ∧ t.fcr = s.fcr ∧ t.fifoEn = s.fifoEn ∧ t.lcr = s.lcr ∧ t.mcr = s.mcr ∧ t.dll = s.dll ∧ t.dlh = s.dlh ∧
    t.refused = s.refused ∧ t.txOverrun = s.txOverrun ∧ t.seq = s.seq ∧ t.reads = s.reads ∧ t.results = s.results ∧
    t.program = s.program ∧ t.schedule = s.schedule ∧ t.platform = s.platform

/-- A byte in flight when a configuration write changes LCR, MCR, DLL or DLH comes out as `garbled`; an IER or FCR write leaves
it intact, and so does a write of the value already stored (44_line_agents.md R152, decision D25). -/
def Obligations.ReconfigurationGarblesTheByteInFlight : Prop :=
  ∀ (s t u : State) (b : Byte) (d : Byte), s.tsr = some { b := b, ok := true } → moveStep .txDone t = .next u →
    (exec (.lcrWrite d) s = .next t → u.txLine = s.txLine ++ [if d = s.lcr then .byte b else .garbled]) ∧
    (exec (.mcrWrite d) s = .next t → u.txLine = s.txLine ++ [if d = s.mcr then .byte b else .garbled]) ∧
    (exec (.dllWrite d) s = .next t → u.txLine = s.txLine ++ [if d = s.dll then .byte b else .garbled]) ∧
    (exec (.dlhWrite d) s = .next t → u.txLine = s.txLine ++ [if d = s.dlh then .byte b else .garbled]) ∧
    (exec (.ierWrite d) s = .next t → u.txLine = s.txLine ++ [.byte b]) ∧
    (exec (.fcrWrite d) s = .next t → u.txLine = s.txLine ++ [.byte b])

/-- Order and integrity of what goes out: a step leaves the stream of bytes (line, shift register, queue) as it was, symbol by
symbol, each kept or garbled in its place, with at most one byte more at the end and that one only by a move of the host; or
it is `FCR_WRITE(FCR_INIT)`, which discards exactly the queued bytes. Nothing is duplicated and nothing is reordered
(44_line_agents.md R158). -/
def Obligations.TransmitStreamKeepsItsOrder : Prop :=
  ∀ s t : State, step s = .next t →
    (∃ added : List Byte, added.length ≤ 1 ∧ (added ≠ [] → s.nextMove = .host) ∧
      List.Forall₂ Symbol.keptOrGarbled (outStream s ++ added.map Symbol.byte) (outStream t)) ∨
    (s.nextMove = .host ∧ ∃ prog : List HostOp,
      exec (.fcrWrite s.platform.fcrInit) { s with program := prog, schedule := s.schedule.tail } =
        .next { t with seq := s.seq, results := s.results })

/-- Order and integrity of what comes in: a step leaves the receive queue as it was, or appends the one byte that arrived (itself
under `configured`, a draw otherwise), or takes its head off and gives exactly that byte to the host, or is
`FCR_WRITE(FCR_INIT)` (44_line_agents.md R158). -/
def Obligations.ReceiveQueueKeepsItsOrder : Prop :=
  ∀ s t : State, step s = .next t →
    t.rxq = s.rxq ∨
    (∃ b : Byte, s.nextMove = .rxArrive b ∧ t.rxLine = s.rxLine ++ [b] ∧
      t.rxq = s.rxq ++ [if s.configured then b else Config.freeByte s.draws]) ∨
    (∃ v : Byte, s.nextMove = .host ∧ s.platform.rxReadPops = true ∧ s.rxq = v :: t.rxq ∧ t.reads = s.reads ++ [v]) ∨
    (s.nextMove = .host ∧ ∃ prog : List HostOp,
      exec (.fcrWrite s.platform.fcrInit) { s with program := prog, schedule := s.schedule.tail } =
        .next { t with seq := s.seq, results := s.results })

/-- Under `PEER_HONOURS_RTS` no run raises `RX_OVERRUN`: a step whose move is no arrival into a full queue leaves the mark as it
was (44_line_agents.md R157). -/
def Obligations.PeerHonouringRtsPreventsOverrun : Prop :=
  ∀ s t : State, peerHonoursRts s.nextMove s = true → step s = .next t → t.rxOverrun = s.rxOverrun

/-! ## Probes and the transceiver -/

/-- The transitions of the sequencer, row by row and in every variant of the probes: the composites, and the two probes run by
themselves (30_encoding.md R80), start with no bus operation, a true probe leads on and a false one back (or to the result
`none`), the write of `SEND_WRITE` and the read of `POLL_READ` are those of offset 0 and lead to `IDLE`
(42_transceiver.md R134; the position between the two reads of a ready-count probe, and the start of a probe run by itself
as a step of its own: log 12). -/
def Obligations.SequencerTransitions : Prop :=
  (∀ (s : State) (c : Byte) (rest : List HostOp), s.seq = .idle → s.program = .sendChar c :: rest →
    moveStep .host s = .next { s with program := rest, seq := .sendWait c }) ∧
  (∀ (s : State) (rest : List HostOp), s.seq = .idle → s.program = .pollChar :: rest →
    moveStep .host s = .next { s with program := rest, seq := .pollProbe }) ∧
  (∀ (s : State) (rest : List HostOp), s.seq = .idle → s.program = .txReady :: rest →
    moveStep .host s = .next { s with program := rest, seq := .txReady }) ∧
  (∀ (s : State) (rest : List HostOp), s.seq = .idle → s.program = .rxReady :: rest →
    moveStep .host s = .next { s with program := rest, seq := .rxReady }) ∧
  (∀ (s : State) (c : Byte), s.seq = .sendWait c → s.platform.probeTx = .thre → ∃ (v : Byte) (t : State),
    busRead 20#5 s = .next t ∧ t.reads = s.reads ++ [v] ∧
    moveStep .host s = .next { t with seq := if v &&& 0x20 ≠ 0 then .sendWrite c else .sendWait c }) ∧
  (∀ (s : State) (c : Byte) (lo hi : Offset), s.seq = .sendWait c → s.platform.wf = true →
    s.platform.probeTx = .count8 lo hi → ∃ (v : Byte) (t : State),
    busRead lo s = .next t ∧ t.reads = s.reads ++ [v] ∧
    moveStep .host s = .next { t with seq := .sendWaitHi c v }) ∧
  (∀ (s : State) (c l : Byte) (lo hi : Offset), s.seq = .sendWaitHi c l → s.platform.wf = true →
    s.platform.probeTx = .count8 lo hi → ∃ (v : Byte) (t : State),
    busRead hi s = .next t ∧ t.reads = s.reads ++ [v] ∧
    moveStep .host s = .next
      { t with seq := if 8 ≤ v.toNat * 256 + l.toNat then .sendWrite c else .sendWait c }) ∧
  (∀ (s : State) (c : Byte), s.seq = .sendWrite c → ∃ t : State,
    busWrite 0#5 c s = .next t ∧ moveStep .host s = .next { t with seq := .idle }) ∧
  (∀ s : State, s.seq = .pollProbe → s.platform.probeRx = .dr → ∃ (v : Byte) (t : State),
    busRead 20#5 s = .next t ∧ t.reads = s.reads ++ [v] ∧
    moveStep .host s = .next (if v &&& 0x01 ≠ 0 then { t with seq := .pollRead }
      else { t with seq := .idle, results := t.results ++ [.polled none] })) ∧
  (∀ (s : State) (pops : Bool) (empty : Option Byte), s.seq = .pollProbe → s.platform.probeRx = .nonzero pops empty →
    ∃ (v : Byte) (t : State), busRead 0#5 s = .next t ∧ t.reads = s.reads ++ [v] ∧
    moveStep .host s = .next (if v ≠ 0 then { t with seq := .pollRead }
      else { t with seq := .idle, results := t.results ++ [.polled none] })) ∧
  ∀ s : State, s.seq = .pollRead → ∃ (v : Byte) (t : State),
    busRead 0#5 s = .next t ∧ t.reads = s.reads ++ [v] ∧
    moveStep .host s = .next { t with seq := .idle, results := t.results ++ [.polled (some v)] }

/-- `TX_READY` and `RX_READY`, variant A: one read of LSR, whose result is exactly whether the transmit queue is empty,
respectively whether the receive queue holds a byte, whatever the draw; no state of the block changes, and the mode latch
plays no part (41_link_state_probe.md R120, R123). -/
def Obligations.StatusBitProbes : Prop :=
  (∀ s : State, s.seq = .txReady → s.platform.probeTx = .thre → ∃ v : Byte,
    moveStep .host s = .next
      { s with seq := .idle, reads := s.reads ++ [v], draws := s.draws + 1,
               results := s.results ++ [.txReady (decide (s.txq = []))] }) ∧
  ∀ s : State, s.seq = .rxReady → s.platform.probeRx = .dr → ∃ v : Byte,
    moveStep .host s = .next
      { s with seq := .idle, reads := s.reads ++ [v], draws := s.draws + 1,
               results := s.results ++ [.rxReady (decide (s.rxq ≠ []))] }

/-- `TX_READY` variant B, read by read: the low byte is kept at the `yield`, and the second read makes the result
`hi * 256 + lo >= 8` of the two bytes; no state of the block changes (41_link_state_probe.md R121, decision D19; the free
space fits 16 bits, log 7). -/
def Obligations.ReadyCountProbe : Prop :=
  (∀ (s : State) (lo hi : Offset), s.seq = .txReady → s.platform.wf = true → s.platform.probeTx = .count8 lo hi →
    s.txFree < 65536 →
    moveStep .host s = .next
      { s with seq := .txReadyHi (BitVec.ofNat 8 s.txFree), reads := s.reads ++ [BitVec.ofNat 8 s.txFree] }) ∧
  ∀ (s : State) (lo hi : Offset) (l : Byte), s.seq = .txReadyHi l → s.platform.wf = true →
    s.platform.probeTx = .count8 lo hi → s.txFree < 65536 →
    moveStep .host s = .next
      { s with seq := .idle, reads := s.reads ++ [BitVec.ofNat 8 (s.txFree / 256)],
               results := s.results ++ [.txReady (decide (8 ≤ s.txFree / 256 * 256 + l.toNat))] }

/-- A true result of `TX_READY` variant B is sound although the two reads are not atomic together: from a state of the
invariant, whatever moved between the reads, at the second read at least 8 entries are free
(41_link_state_probe.md R122 (b)). -/
def Obligations.ReadyCountResultIsSound : Prop :=
  ∀ (s t : State) (lo hi : Offset) (l : Byte), Consistent s → s.platform.probeTx = .count8 lo hi → s.seq = .txReadyHi l →
    moveStep .host s = .next t → t.results = s.results ++ [.txReady true] → 8 ≤ s.capTx - s.txq.length

/-- On a ready-count platform with fewer than 8 entries (a small FIFO, or the FIFO off) a waiting `SEND_CHAR` waits for ever:
every step that is no accepted FIFO clear leaves it waiting, and while it waits the host makes none
(41_link_state_probe.md R129). -/
def Obligations.ReadyCountNeverReadyBelowEight : Prop :=
  ∀ (m : Move) (s t : State) (lo hi : Offset) (c : Byte), s.platform.wf = true → s.platform.probeTx = .count8 lo hi →
    s.capTx < 8 → (s.seq = .sendWait c ∨ ∃ l : Byte, s.seq = .sendWaitHi c l ∧ l.toNat < 8) → moveStep m s = .next t →
    t.capTx < 8 ∧ t.platform = s.platform ∧ (t.seq = .sendWait c ∨ ∃ l : Byte, t.seq = .sendWaitHi c l ∧ l.toNat < 8)

/-- `RX_READY` variant B with the latch clear is a read of the holding register with all its side effects, and its result is
whether the byte read is nonzero; with the latch set it tests DLL (41_link_state_probe.md R124, R128 (e)). -/
def Obligations.RawValueProbe : Prop :=
  ∀ (s : State) (pops : Bool) (empty : Option Byte), s.seq = .rxReady → s.platform.probeRx = .nonzero pops empty →
    (s.latch = false → ∃ (v : Byte) (t : State),
      exec .rbrRead s = .next t ∧ t.reads = s.reads ++ [v] ∧
      moveStep .host s = .next { t with seq := .idle, results := t.results ++ [.rxReady (v != 0)] }) ∧
    (s.latch = true →
      moveStep .host s = .next
        { s with seq := .idle, reads := s.reads ++ [s.dll], results := s.results ++ [.rxReady (s.dll != 0)] })

/-- The limits of `POLL_CHAR` on a raw-value platform, latch clear: the probe itself takes the head of the queue off if
`RX_READ_POPS` and otherwise never removes it; a zero byte makes the poll answer `none`; after a true probe the read
returns whatever is at the head then, and `RX_EMPTY_VALUE` where the probe took the only byte
(41_link_state_probe.md R128 (a) to (c)). -/
def Obligations.RawValuePollLimits : Prop :=
  (∀ (s : State) (pops : Bool) (empty : Option Byte) (v : Byte) (rest : List Byte), s.latch = false →
    s.platform.probeRx = .nonzero pops empty → s.rxq = v :: rest →
    (s.seq = .pollProbe → v ≠ 0 →
      moveStep .host s = .next
        { s with rxq := if pops then rest else v :: rest, reads := s.reads ++ [v], seq := .pollRead }) ∧
    (s.seq = .pollProbe → v = 0 →
      moveStep .host s = .next
        { s with rxq := if pops then rest else v :: rest, reads := s.reads ++ [v], seq := .idle,
                 results := s.results ++ [.polled none] }) ∧
    (s.seq = .pollRead →
      moveStep .host s = .next
        { s with rxq := if pops then rest else v :: rest, reads := s.reads ++ [v], seq := .idle,
                 results := s.results ++ [.polled (some v)] })) ∧
  ∀ (s : State) (pops : Bool) (w : Byte), s.latch = false → s.platform.probeRx = .nonzero pops (some w) → s.rxq = [] →
    s.seq = .pollRead →
    moveStep .host s = .next
      { s with reads := s.reads ++ [w], seq := .idle, results := s.results ++ [.polled (some w)] }

/-- `SEND_CHAR` never raises `TX_OVERRUN`: at `SEND_WRITE`, in a state of the invariant with the latch clear, the byte is
accepted behind every byte before it, and nothing else changes (42_transceiver.md R130, R136). -/
def Obligations.SendCharNeverOverruns : Prop :=
  ∀ (s : State) (c : Byte), Consistent s → s.seq = .sendWrite c → s.latch = false →
    moveStep .host s = .next { s with txq := s.txq ++ [c], seq := .idle }

/-- `POLL_CHAR` on a status-bit platform returns the oldest unread byte: at `POLL_READ`, in a state of the invariant with the
latch clear, the queue holds a byte, which is returned as `some(v)` and removed (42_transceiver.md R132). -/
def Obligations.PollCharReturnsTheOldestByte : Prop :=
  ∀ s : State, Consistent s → s.platform.probeRx = .dr → s.seq = .pollRead → s.latch = false →
    ∃ (v : Byte) (rest : List Byte), s.rxq = v :: rest ∧
      moveStep .host s = .next
        { s with rxq := rest, reads := s.reads ++ [v], seq := .idle, results := s.results ++ [.polled (some v)] }

/-- With the latch set, `SEND_CHAR` writes the divisor and sends nothing, and `POLL_CHAR` returns DLL and reads nothing
(42_transceiver.md R135). -/
def Obligations.LatchSetTurnsCharactersIntoDivisor : Prop :=
  (∀ (s : State) (c : Byte), s.seq = .sendWrite c → s.latch = true →
    moveStep .host s = .next
      { s with dll := c, tsr := if c = s.dll then s.tsr else s.tsr.map (fun f => { f with ok := false }), seq := .idle }) ∧
  ∀ s : State, s.seq = .pollRead → s.latch = true →
    moveStep .host s = .next
      { s with reads := s.reads ++ [s.dll], seq := .idle, results := s.results ++ [.polled (some s.dll)] }

/-- Under `TX_FAIR`, with a host that keeps moving, a waiting `SEND_CHAR` ends: from a state of the invariant, on a status-bit
platform, or on a ready-count platform with the FIFO on and at least 8 entries, every endless execution comes to a moment
at which the host is idle again, having made the write (44_line_agents.md R157, 42_transceiver.md R131). -/
def Obligations.SendCharEndsUnderFairness : Prop :=
  ∀ (f : Nat → Move) (σ : Nat → State) (c : Byte), Execution f σ → HostMoves f → TxFair f σ → Consistent (σ 0) →
    (σ 0).seq = .sendWait c → ((σ 0).platform.probeTx = .thre ∨ ((σ 0).fifoEn = true ∧ 8 ≤ (σ 0).platform.txDepth)) →
    ∃ n, (σ n).seq = .sendWrite c ∧ (σ (n + 1)).seq = .idle

/-! ## Initialisation -/

/-- The divisor is `frequency / (baud * 16)` by integer division, on exact naturals; it is performed exactly when `baud` is not
zero and the quotient is 1 to 65535, and otherwise refused with `REF_DIVISOR` and no bus operation (43_init.md R141, R144,
decision D29; that the start of a performed `UART_INIT` is a step of its own without a bus operation: log 12). -/
def Obligations.InitDivisorOperand : Prop :=
  ∀ (s : State) (frequency baud : Nat) (rest : List HostOp), s.seq = .idle →
    s.program = .uartInit frequency baud :: rest →
    (baud ≠ 0 → 1 ≤ frequency / (baud * 16) → frequency / (baud * 16) ≤ 65535 →
      moveStep .host s = .next
        { s with program := rest, seq := .init .disableInterrupts (BitVec.ofNat 16 (frequency / (baud * 16))) }) ∧
    ((baud = 0 ∨ frequency / (baud * 16) = 0 ∨ 65535 < frequency / (baud * 16)) →
      moveStep .host s = .next { s with program := rest, refused := s.refused.or (some .refDivisor) })

/-- The split of the divisor: the low byte is the divisor mod 256 and goes to offset 0, the high byte is (divisor / 256) mod 256
and goes to offset 4, both while the mode latch is set (43_init.md R142). -/
def Obligations.DivisorSplit : Prop :=
  ∀ (s : State) (d : BitVec 16), Consistent s →
    (s.seq = .init .divisorLow d → ∃ t : State, s.latch = true ∧ moveStep .host s = .next t ∧
      busWrite 0#5 (BitVec.ofNat 8 (d.toNat % 256)) s = .next { t with seq := s.seq } ∧
      t.dll.toNat = d.toNat % 256 ∧ t.seq = .init .divisorHigh d ∧ t.dlh = s.dlh) ∧
    (s.seq = .init .divisorHigh d → ∃ t : State, s.latch = true ∧ moveStep .host s = .next t ∧
      busWrite 4#5 (BitVec.ofNat 8 (d.toNat / 256 % 256)) s = .next { t with seq := s.seq } ∧
      t.dlh.toNat = d.toNat / 256 % 256 ∧ t.seq = .init .clearLatch d ∧ t.dll = s.dll)

/-- The seven writes of the initialisation, at each position the word and the position after it: 4 gets 0x00, 12 gets 0x80, 0 the
low and 4 the high byte, 12 gets 0x03, 8 gets `FCR_INIT`, 16 gets 0x20 (43_init.md R140, R143; the values of steps 1 and 2
are decision D28). -/
def Obligations.InitStepsInOrder : Prop :=
  ∀ (s : State) (d : BitVec 16) (k : InitStep), s.seq = .init k d → ∃ t : State,
    (match k with
    | .disableInterrupts => busWrite 4#5 0x00 s = .next t ∧ moveStep .host s = .next { t with seq := .init .setLatch d }
    | .setLatch => busWrite 12#5 0x80 s = .next t ∧ moveStep .host s = .next { t with seq := .init .divisorLow d }
    | .divisorLow =>
      busWrite 0#5 (BitVec.ofNat 8 (d.toNat % 256)) s = .next t ∧
        moveStep .host s = .next { t with seq := .init .divisorHigh d }
    | .divisorHigh =>
      busWrite 4#5 (BitVec.ofNat 8 (d.toNat / 256 % 256)) s = .next t ∧
        moveStep .host s = .next { t with seq := .init .clearLatch d }
    | .clearLatch => busWrite 12#5 0x03 s = .next t ∧ moveStep .host s = .next { t with seq := .init .fifoInit d }
    | .fifoInit =>
      busWrite 8#5 s.platform.fcrInit s = .next t ∧ moveStep .host s = .next { t with seq := .init .autoflow d }
    | .autoflow => busWrite 16#5 0x20 s = .next t ∧ moveStep .host s = .next { t with seq := .idle })

/-- The state `UART_INIT` leaves, from any state and under every schedule of the line agents: once the host has made its eight
moves (the start and the seven writes) the registers hold what 43_init.md R145 lists, the transmit queue is empty, the block
is configured, and IER is 0x00 if the latch was clear at the start and unchanged if it was set (the start as a step of its
own, the eighth of the host's moves: log 12; the values of steps 1 and 2 are decision D28, `FCR_INIT` D6). -/
def Obligations.InitLeavesTheBlockConfigured : Prop :=
  ∀ (s : State) (frequency baud : Nat) (d : BitVec 16) (rest : List HostOp) (moves : List Move),
    s.seq = .idle → s.program = .uartInit frequency baud :: rest → divisorOperand frequency baud = some d →
    moves.count .host = 8 → ∃ t : State,
      runMoves moves s = .next t ∧ t.seq = .idle ∧ t.program = rest ∧
      t.lcr = 0x03 ∧ t.mcr = 0x20 ∧ t.dll = divisorLowByte d ∧ t.dlh = divisorHighByte d ∧
      t.fcr = s.platform.fcrInit ∧ t.fifoEn = true ∧ t.txq = [] ∧ t.configured = true ∧
      t.ier = (if s.latch then s.ier else 0x00) ∧ t.refused = s.refused

/-! ## The interrupt output and the idle host -/

/-- The interrupt output is inactive at every moment while IER is 0x00, and unconstrained otherwise (60_exceptions.md R170,
decision D14; the free value of log 14). -/
def Obligations.InterruptOutputInactiveWhileIerZero : Prop :=
  ∀ (s : State) (moment : Nat),
    (s.ier = 0x00 → s.interruptOutput moment = false) ∧
    (s.ier ≠ 0x00 → s.interruptOutput moment = Config.freeIrq moment)

/-- With nothing left to issue the host changes nothing, and a run that has ended stays ended whatever the agents do: no
step of the host or the transmitter changes the state, and after an arrival, which may fill the receive queue or raise
`RX_OVERRUN`, the run is still ended (70_reset_and_hazards.md R205, decision D30; the idle host: log 2; a transmitter step
that is not enabled is a move that changes nothing: log 1). -/
def Obligations.EndedRunStaysEnded : Prop :=
  ∀ s : State, s.runEnded = true →
    moveStep .host s = .next s ∧ moveStep .txLoad s = .next s ∧ moveStep .txDone s = .next s ∧
    ∀ b : Byte, ∃ t : State, moveStep (.rxArrive b) s = .next t ∧ t.runEnded = true
end

