-- ==== Sys2Proof/Laws/Word.lean ====
section
/-! SUPPORT. The fields of a word made from fields, and of a decode word; a word is made of its fields. -/

namespace Sys2Proof

@[simp] theorem isWrite_make (w : Bool) (o : Offset) (d : Byte) : (TWord.make w o d).isWrite = w := by
  simp only [TWord.isWrite, TWord.make, BitVec.getLsbD_append]; simp

@[simp] theorem latchBit_make (w : Bool) (o : Offset) (d : Byte) : (TWord.make w o d).latchBit = false := by
  simp only [TWord.latchBit, TWord.make, BitVec.getLsbD_append]; simp

@[simp] theorem zeroBit_make (w : Bool) (o : Offset) (d : Byte) : (TWord.make w o d).zeroBit = false := by
  simp only [TWord.zeroBit, TWord.make, BitVec.getLsbD_append]; simp

@[simp] theorem offset_make (w : Bool) (o : Offset) (d : Byte) : (TWord.make w o d).offset = o := by
  ext i hi; simp [TWord.offset, TWord.make]; grind

@[simp] theorem data_make (w : Bool) (o : Offset) (d : Byte) : (TWord.make w o d).data = d := by
  ext i hi; simp [TWord.data, TWord.make]; grind

@[simp] theorem isWrite_withLatch (l : Bool) (t : TWord) : (t.withLatch l).isWrite = t.isWrite := by
  simp only [TWord.isWrite, TWord.withLatch, BitVec.getLsbD_append]; simp

@[simp] theorem latchBit_withLatch (l : Bool) (t : TWord) : (t.withLatch l).latchBit = l := by
  simp only [TWord.latchBit, TWord.withLatch, BitVec.getLsbD_append]; simp

@[simp] theorem zeroBit_withLatch (l : Bool) (t : TWord) : (t.withLatch l).zeroBit = t.zeroBit := by
  simp only [TWord.zeroBit, TWord.withLatch, BitVec.getLsbD_append]; simp

@[simp] theorem offset_withLatch (l : Bool) (t : TWord) : (t.withLatch l).offset = t.offset := by
  ext i hi; simp [TWord.offset, TWord.withLatch]; grind

@[simp] theorem data_withLatch (l : Bool) (t : TWord) : (t.withLatch l).data = t.data := by
  ext i hi; simp [TWord.data, TWord.withLatch]; grind

/-- A word whose bits 14 and 13 are clear is made of its fields. -/
theorem make_fields (t : TWord) (h14 : t.latchBit = false) (h13 : t.zeroBit = false) :
    TWord.make t.isWrite t.offset t.data = t := by
  simp only [TWord.latchBit, TWord.zeroBit] at h14 h13
  apply BitVec.eq_of_getLsbD_eq
  intro i hi
  simp only [TWord.isWrite, TWord.offset, TWord.data, TWord.make, BitVec.getLsbD_append]
  have : i < 8 ∨ (8 ≤ i ∧ i < 13) ∨ i = 13 ∨ i = 14 ∨ i = 15 := by omega
  rcases this with h | ⟨h, h'⟩ | rfl | rfl | rfl
  · simp [h]
  · have e : 8 + (i - 8) = i := by omega
    have l : i - 8 < 5 := by omega
    simp [show ¬ i < 8 by omega, l, e]
  · simpa using h13.symm
  · simpa using h14.symm
  · simp

/-- A word made of fields passes the check of 30_encoding.md R71 exactly when it is no read with data. -/
@[simp] theorem isTransaction_make (w : Bool) (o : Offset) (d : Byte) :
    (TWord.make w o d).isTransaction = (w || d == 0) := by
  simp [TWord.isTransaction]

end Sys2Proof
end

