-- ==== Sys2Proof/Laws/Decode.lean ====
section
/-! SUPPORT. The decoder on a word given by its fields: what a row tests, and that a checked word is looked up with the latch
filled in. -/

namespace Sys2Proof

/-- A word that is no transaction decodes to itself as a bad word, in either bank. -/
theorem decode_of_not_isTransaction (p : Platform) (l : Bool) (t : TWord) (h : t.isTransaction = false) :
    decode p l t = .badWord t := by
  simp [decode, h]

/-- A transaction is looked up with the mode latch filled in. -/
theorem decode_of_isTransaction (p : Platform) (l : Bool) (t : TWord) (h : t.isTransaction = true) :
    decode p l t = decodeX p (t.withLatch l) := by
  simp [decode, h]

/-- A row tests a word's direction, its offset and, where the row has one, the latch. -/
@[simp] theorem hits_withLatch_make (r : DecodeRow) (l w : Bool) (o : Offset) (d : Byte) :
    r.hits ((TWord.make w o d).withLatch l) =
      (w == r.write && o == r.off && r.latch.all (fun b => l == b)) := by
  simp [DecodeRow.hits]

/-- A transaction of given fields selects the first row that tests true of them, and the reserved row where none does. -/
theorem decode_make (p : Platform) (l w : Bool) (o : Offset) (d : Byte) (h : (w || d == 0) = true) :
    decode p l (TWord.make w o d) =
      match (fixedRows ++ txcntRows p).find?
        (fun r => w == r.write && o == r.off && r.latch.all (fun b => l == b)) with
      | some r => r.op d
      | none => .reservedOffset w o d := by
  rw [decode_of_isTransaction _ _ _ (by simpa using h)]
  simp only [decodeX, hits_withLatch_make, data_withLatch, data_make, zeroBit_withLatch, zeroBit_make,
    isWrite_withLatch, isWrite_make, offset_withLatch, offset_make, Bool.false_eq_true, if_false]
  all_goals rfl

/-- The fields a transaction is made of. -/
theorem isTransaction_fields (t : TWord) (h : t.isTransaction = true) :
    t.latchBit = false ∧ t.zeroBit = false ∧ (t.isWrite = true ∨ t.data = 0) := by
  simpa [TWord.isTransaction, and_assoc, and_comm, and_left_comm] using h

/-- A transaction is made of its direction, its offset and its data. -/
theorem exists_make_of_isTransaction (t : TWord) (h : t.isTransaction = true) :
    ∃ w o d, t = TWord.make w o d ∧ (w || d == 0) = true := by
  obtain ⟨h14, h13, hd⟩ := isTransaction_fields t h
  exact ⟨_, _, _, (make_fields t h14 h13).symm, by simpa using hd⟩

end Sys2Proof
end

