-- ==== Sys2Proof/Laws/State.lean ====
section
/-! SUPPORT. One lemma per field for each named update of the state: what the update makes of the field. -/

namespace Sys2Proof.Machine

/-! ## `returnByte`: what a bus read gives the host -/

@[simp] theorem returnByte_platform (v : Byte) (s : State) : (returnByte v s).platform = s.platform := rfl
@[simp] theorem returnByte_ier (v : Byte) (s : State) : (returnByte v s).ier = s.ier := rfl
@[simp] theorem returnByte_fcr (v : Byte) (s : State) : (returnByte v s).fcr = s.fcr := rfl
@[simp] theorem returnByte_fifoEn (v : Byte) (s : State) : (returnByte v s).fifoEn = s.fifoEn := rfl
@[simp] theorem returnByte_lcr (v : Byte) (s : State) : (returnByte v s).lcr = s.lcr := rfl
@[simp] theorem returnByte_mcr (v : Byte) (s : State) : (returnByte v s).mcr = s.mcr := rfl
@[simp] theorem returnByte_dll (v : Byte) (s : State) : (returnByte v s).dll = s.dll := rfl
@[simp] theorem returnByte_dlh (v : Byte) (s : State) : (returnByte v s).dlh = s.dlh := rfl
@[simp] theorem returnByte_txq (v : Byte) (s : State) : (returnByte v s).txq = s.txq := rfl
@[simp] theorem returnByte_rxq (v : Byte) (s : State) : (returnByte v s).rxq = s.rxq := rfl
@[simp] theorem returnByte_tsr (v : Byte) (s : State) : (returnByte v s).tsr = s.tsr := rfl
@[simp] theorem returnByte_txLine (v : Byte) (s : State) : (returnByte v s).txLine = s.txLine := rfl
@[simp] theorem returnByte_rxLine (v : Byte) (s : State) : (returnByte v s).rxLine = s.rxLine := rfl
@[simp] theorem returnByte_txOverrun (v : Byte) (s : State) : (returnByte v s).txOverrun = s.txOverrun := rfl
@[simp] theorem returnByte_rxOverrun (v : Byte) (s : State) : (returnByte v s).rxOverrun = s.rxOverrun := rfl
@[simp] theorem returnByte_txLost (v : Byte) (s : State) : (returnByte v s).txLost = s.txLost := rfl
@[simp] theorem returnByte_rxLost (v : Byte) (s : State) : (returnByte v s).rxLost = s.rxLost := rfl
@[simp] theorem returnByte_refused (v : Byte) (s : State) : (returnByte v s).refused = s.refused := rfl
@[simp] theorem returnByte_seq (v : Byte) (s : State) : (returnByte v s).seq = s.seq := rfl
@[simp] theorem returnByte_reads (v : Byte) (s : State) : (returnByte v s).reads = s.reads ++ [v] := rfl
@[simp] theorem returnByte_results (v : Byte) (s : State) : (returnByte v s).results = s.results := rfl
@[simp] theorem returnByte_program (v : Byte) (s : State) : (returnByte v s).program = s.program := rfl
@[simp] theorem returnByte_schedule (v : Byte) (s : State) : (returnByte v s).schedule = s.schedule := rfl
@[simp] theorem returnByte_draws (v : Byte) (s : State) : (returnByte v s).draws = s.draws := rfl

/-! ## `countDraw`: a draw made -/

@[simp] theorem countDraw_platform (s : State) : (countDraw s).platform = s.platform := rfl
@[simp] theorem countDraw_ier (s : State) : (countDraw s).ier = s.ier := rfl
@[simp] theorem countDraw_fcr (s : State) : (countDraw s).fcr = s.fcr := rfl
@[simp] theorem countDraw_fifoEn (s : State) : (countDraw s).fifoEn = s.fifoEn := rfl
@[simp] theorem countDraw_lcr (s : State) : (countDraw s).lcr = s.lcr := rfl
@[simp] theorem countDraw_mcr (s : State) : (countDraw s).mcr = s.mcr := rfl
@[simp] theorem countDraw_dll (s : State) : (countDraw s).dll = s.dll := rfl
@[simp] theorem countDraw_dlh (s : State) : (countDraw s).dlh = s.dlh := rfl
@[simp] theorem countDraw_txq (s : State) : (countDraw s).txq = s.txq := rfl
@[simp] theorem countDraw_rxq (s : State) : (countDraw s).rxq = s.rxq := rfl
@[simp] theorem countDraw_tsr (s : State) : (countDraw s).tsr = s.tsr := rfl
@[simp] theorem countDraw_txLine (s : State) : (countDraw s).txLine = s.txLine := rfl
@[simp] theorem countDraw_rxLine (s : State) : (countDraw s).rxLine = s.rxLine := rfl
@[simp] theorem countDraw_txOverrun (s : State) : (countDraw s).txOverrun = s.txOverrun := rfl
@[simp] theorem countDraw_rxOverrun (s : State) : (countDraw s).rxOverrun = s.rxOverrun := rfl
@[simp] theorem countDraw_txLost (s : State) : (countDraw s).txLost = s.txLost := rfl
@[simp] theorem countDraw_rxLost (s : State) : (countDraw s).rxLost = s.rxLost := rfl
@[simp] theorem countDraw_refused (s : State) : (countDraw s).refused = s.refused := rfl
@[simp] theorem countDraw_seq (s : State) : (countDraw s).seq = s.seq := rfl
@[simp] theorem countDraw_reads (s : State) : (countDraw s).reads = s.reads := rfl
@[simp] theorem countDraw_results (s : State) : (countDraw s).results = s.results := rfl
@[simp] theorem countDraw_program (s : State) : (countDraw s).program = s.program := rfl
@[simp] theorem countDraw_schedule (s : State) : (countDraw s).schedule = s.schedule := rfl
@[simp] theorem countDraw_draws (s : State) : (countDraw s).draws = s.draws + 1 := rfl

/-! ## `returnDraw`: a read that returns a draw -/

@[simp] theorem returnDraw_platform (s : State) : (returnDraw s).platform = s.platform := rfl
@[simp] theorem returnDraw_ier (s : State) : (returnDraw s).ier = s.ier := rfl
@[simp] theorem returnDraw_fcr (s : State) : (returnDraw s).fcr = s.fcr := rfl
@[simp] theorem returnDraw_fifoEn (s : State) : (returnDraw s).fifoEn = s.fifoEn := rfl
@[simp] theorem returnDraw_lcr (s : State) : (returnDraw s).lcr = s.lcr := rfl
@[simp] theorem returnDraw_mcr (s : State) : (returnDraw s).mcr = s.mcr := rfl
@[simp] theorem returnDraw_dll (s : State) : (returnDraw s).dll = s.dll := rfl
@[simp] theorem returnDraw_dlh (s : State) : (returnDraw s).dlh = s.dlh := rfl
@[simp] theorem returnDraw_txq (s : State) : (returnDraw s).txq = s.txq := rfl
@[simp] theorem returnDraw_rxq (s : State) : (returnDraw s).rxq = s.rxq := rfl
@[simp] theorem returnDraw_tsr (s : State) : (returnDraw s).tsr = s.tsr := rfl
@[simp] theorem returnDraw_txLine (s : State) : (returnDraw s).txLine = s.txLine := rfl
@[simp] theorem returnDraw_rxLine (s : State) : (returnDraw s).rxLine = s.rxLine := rfl
@[simp] theorem returnDraw_txOverrun (s : State) : (returnDraw s).txOverrun = s.txOverrun := rfl
@[simp] theorem returnDraw_rxOverrun (s : State) : (returnDraw s).rxOverrun = s.rxOverrun := rfl
@[simp] theorem returnDraw_txLost (s : State) : (returnDraw s).txLost = s.txLost := rfl
@[simp] theorem returnDraw_rxLost (s : State) : (returnDraw s).rxLost = s.rxLost := rfl
@[simp] theorem returnDraw_refused (s : State) : (returnDraw s).refused = s.refused := rfl
@[simp] theorem returnDraw_seq (s : State) : (returnDraw s).seq = s.seq := rfl
@[simp] theorem returnDraw_reads (s : State) : (returnDraw s).reads = s.reads ++ [Config.freeByte s.draws] := rfl
@[simp] theorem returnDraw_results (s : State) : (returnDraw s).results = s.results := rfl
@[simp] theorem returnDraw_program (s : State) : (returnDraw s).program = s.program := rfl
@[simp] theorem returnDraw_schedule (s : State) : (returnDraw s).schedule = s.schedule := rfl
@[simp] theorem returnDraw_draws (s : State) : (returnDraw s).draws = s.draws + 1 := rfl

/-! ## `refuse`: the sticky refusal mark -/

@[simp] theorem refuse_platform (r : Reason) (s : State) : (refuse r s).platform = s.platform := rfl
@[simp] theorem refuse_ier (r : Reason) (s : State) : (refuse r s).ier = s.ier := rfl
@[simp] theorem refuse_fcr (r : Reason) (s : State) : (refuse r s).fcr = s.fcr := rfl
@[simp] theorem refuse_fifoEn (r : Reason) (s : State) : (refuse r s).fifoEn = s.fifoEn := rfl
@[simp] theorem refuse_lcr (r : Reason) (s : State) : (refuse r s).lcr = s.lcr := rfl
@[simp] theorem refuse_mcr (r : Reason) (s : State) : (refuse r s).mcr = s.mcr := rfl
@[simp] theorem refuse_dll (r : Reason) (s : State) : (refuse r s).dll = s.dll := rfl
@[simp] theorem refuse_dlh (r : Reason) (s : State) : (refuse r s).dlh = s.dlh := rfl
@[simp] theorem refuse_txq (r : Reason) (s : State) : (refuse r s).txq = s.txq := rfl
@[simp] theorem refuse_rxq (r : Reason) (s : State) : (refuse r s).rxq = s.rxq := rfl
@[simp] theorem refuse_tsr (r : Reason) (s : State) : (refuse r s).tsr = s.tsr := rfl
@[simp] theorem refuse_txLine (r : Reason) (s : State) : (refuse r s).txLine = s.txLine := rfl
@[simp] theorem refuse_rxLine (r : Reason) (s : State) : (refuse r s).rxLine = s.rxLine := rfl
@[simp] theorem refuse_txOverrun (r : Reason) (s : State) : (refuse r s).txOverrun = s.txOverrun := rfl
@[simp] theorem refuse_rxOverrun (r : Reason) (s : State) : (refuse r s).rxOverrun = s.rxOverrun := rfl
@[simp] theorem refuse_txLost (r : Reason) (s : State) : (refuse r s).txLost = s.txLost := rfl
@[simp] theorem refuse_rxLost (r : Reason) (s : State) : (refuse r s).rxLost = s.rxLost := rfl
@[simp] theorem refuse_refused (r : Reason) (s : State) : (refuse r s).refused = s.refused.or (some r) := rfl
@[simp] theorem refuse_seq (r : Reason) (s : State) : (refuse r s).seq = s.seq := rfl
@[simp] theorem refuse_reads (r : Reason) (s : State) : (refuse r s).reads = s.reads := rfl
@[simp] theorem refuse_results (r : Reason) (s : State) : (refuse r s).results = s.results := rfl
@[simp] theorem refuse_program (r : Reason) (s : State) : (refuse r s).program = s.program := rfl
@[simp] theorem refuse_schedule (r : Reason) (s : State) : (refuse r s).schedule = s.schedule := rfl
@[simp] theorem refuse_draws (r : Reason) (s : State) : (refuse r s).draws = s.draws := rfl

/-! ## `raiseTxOverrun`: the fault mark F1 -/

@[simp] theorem raiseTxOverrun_platform (d : Byte) (s : State) : (raiseTxOverrun d s).platform = s.platform := rfl
@[simp] theorem raiseTxOverrun_ier (d : Byte) (s : State) : (raiseTxOverrun d s).ier = s.ier := rfl
@[simp] theorem raiseTxOverrun_fcr (d : Byte) (s : State) : (raiseTxOverrun d s).fcr = s.fcr := rfl
@[simp] theorem raiseTxOverrun_fifoEn (d : Byte) (s : State) : (raiseTxOverrun d s).fifoEn = s.fifoEn := rfl
@[simp] theorem raiseTxOverrun_lcr (d : Byte) (s : State) : (raiseTxOverrun d s).lcr = s.lcr := rfl
@[simp] theorem raiseTxOverrun_mcr (d : Byte) (s : State) : (raiseTxOverrun d s).mcr = s.mcr := rfl
@[simp] theorem raiseTxOverrun_dll (d : Byte) (s : State) : (raiseTxOverrun d s).dll = s.dll := rfl
@[simp] theorem raiseTxOverrun_dlh (d : Byte) (s : State) : (raiseTxOverrun d s).dlh = s.dlh := rfl
@[simp] theorem raiseTxOverrun_txq (d : Byte) (s : State) : (raiseTxOverrun d s).txq = s.txq := rfl
@[simp] theorem raiseTxOverrun_rxq (d : Byte) (s : State) : (raiseTxOverrun d s).rxq = s.rxq := rfl
@[simp] theorem raiseTxOverrun_tsr (d : Byte) (s : State) : (raiseTxOverrun d s).tsr = s.tsr := rfl
@[simp] theorem raiseTxOverrun_txLine (d : Byte) (s : State) : (raiseTxOverrun d s).txLine = s.txLine := rfl
@[simp] theorem raiseTxOverrun_rxLine (d : Byte) (s : State) : (raiseTxOverrun d s).rxLine = s.rxLine := rfl
@[simp] theorem raiseTxOverrun_txOverrun (d : Byte) (s : State) : (raiseTxOverrun d s).txOverrun = true := rfl
@[simp] theorem raiseTxOverrun_rxOverrun (d : Byte) (s : State) : (raiseTxOverrun d s).rxOverrun = s.rxOverrun := rfl
@[simp] theorem raiseTxOverrun_txLost (d : Byte) (s : State) : (raiseTxOverrun d s).txLost = s.txLost ++ [d] := rfl
@[simp] theorem raiseTxOverrun_rxLost (d : Byte) (s : State) : (raiseTxOverrun d s).rxLost = s.rxLost := rfl
@[simp] theorem raiseTxOverrun_refused (d : Byte) (s : State) : (raiseTxOverrun d s).refused = s.refused := rfl
@[simp] theorem raiseTxOverrun_seq (d : Byte) (s : State) : (raiseTxOverrun d s).seq = s.seq := rfl
@[simp] theorem raiseTxOverrun_reads (d : Byte) (s : State) : (raiseTxOverrun d s).reads = s.reads := rfl
@[simp] theorem raiseTxOverrun_results (d : Byte) (s : State) : (raiseTxOverrun d s).results = s.results := rfl
@[simp] theorem raiseTxOverrun_program (d : Byte) (s : State) : (raiseTxOverrun d s).program = s.program := rfl
@[simp] theorem raiseTxOverrun_schedule (d : Byte) (s : State) : (raiseTxOverrun d s).schedule = s.schedule := rfl
@[simp] theorem raiseTxOverrun_draws (d : Byte) (s : State) : (raiseTxOverrun d s).draws = s.draws := rfl

/-! ## `raiseRxOverrun`: the fault mark F2 -/

@[simp] theorem raiseRxOverrun_platform (b : Byte) (s : State) : (raiseRxOverrun b s).platform = s.platform := rfl
@[simp] theorem raiseRxOverrun_ier (b : Byte) (s : State) : (raiseRxOverrun b s).ier = s.ier := rfl
@[simp] theorem raiseRxOverrun_fcr (b : Byte) (s : State) : (raiseRxOverrun b s).fcr = s.fcr := rfl
@[simp] theorem raiseRxOverrun_fifoEn (b : Byte) (s : State) : (raiseRxOverrun b s).fifoEn = s.fifoEn := rfl
@[simp] theorem raiseRxOverrun_lcr (b : Byte) (s : State) : (raiseRxOverrun b s).lcr = s.lcr := rfl
@[simp] theorem raiseRxOverrun_mcr (b : Byte) (s : State) : (raiseRxOverrun b s).mcr = s.mcr := rfl
@[simp] theorem raiseRxOverrun_dll (b : Byte) (s : State) : (raiseRxOverrun b s).dll = s.dll := rfl
@[simp] theorem raiseRxOverrun_dlh (b : Byte) (s : State) : (raiseRxOverrun b s).dlh = s.dlh := rfl
@[simp] theorem raiseRxOverrun_txq (b : Byte) (s : State) : (raiseRxOverrun b s).txq = s.txq := rfl
@[simp] theorem raiseRxOverrun_rxq (b : Byte) (s : State) : (raiseRxOverrun b s).rxq = s.rxq := rfl
@[simp] theorem raiseRxOverrun_tsr (b : Byte) (s : State) : (raiseRxOverrun b s).tsr = s.tsr := rfl
@[simp] theorem raiseRxOverrun_txLine (b : Byte) (s : State) : (raiseRxOverrun b s).txLine = s.txLine := rfl
@[simp] theorem raiseRxOverrun_rxLine (b : Byte) (s : State) : (raiseRxOverrun b s).rxLine = s.rxLine := rfl
@[simp] theorem raiseRxOverrun_txOverrun (b : Byte) (s : State) : (raiseRxOverrun b s).txOverrun = s.txOverrun := rfl
@[simp] theorem raiseRxOverrun_rxOverrun (b : Byte) (s : State) : (raiseRxOverrun b s).rxOverrun = true := rfl
@[simp] theorem raiseRxOverrun_txLost (b : Byte) (s : State) : (raiseRxOverrun b s).txLost = s.txLost := rfl
@[simp] theorem raiseRxOverrun_rxLost (b : Byte) (s : State) : (raiseRxOverrun b s).rxLost = s.rxLost ++ [b] := rfl
@[simp] theorem raiseRxOverrun_refused (b : Byte) (s : State) : (raiseRxOverrun b s).refused = s.refused := rfl
@[simp] theorem raiseRxOverrun_seq (b : Byte) (s : State) : (raiseRxOverrun b s).seq = s.seq := rfl
@[simp] theorem raiseRxOverrun_reads (b : Byte) (s : State) : (raiseRxOverrun b s).reads = s.reads := rfl
@[simp] theorem raiseRxOverrun_results (b : Byte) (s : State) : (raiseRxOverrun b s).results = s.results := rfl
@[simp] theorem raiseRxOverrun_program (b : Byte) (s : State) : (raiseRxOverrun b s).program = s.program := rfl
@[simp] theorem raiseRxOverrun_schedule (b : Byte) (s : State) : (raiseRxOverrun b s).schedule = s.schedule := rfl
@[simp] theorem raiseRxOverrun_draws (b : Byte) (s : State) : (raiseRxOverrun b s).draws = s.draws := rfl

/-! ## `damageTsr`: the damage of a configuration write -/

@[simp] theorem damageTsr_platform (s : State) : (damageTsr s).platform = s.platform := rfl
@[simp] theorem damageTsr_ier (s : State) : (damageTsr s).ier = s.ier := rfl
@[simp] theorem damageTsr_fcr (s : State) : (damageTsr s).fcr = s.fcr := rfl
@[simp] theorem damageTsr_fifoEn (s : State) : (damageTsr s).fifoEn = s.fifoEn := rfl
@[simp] theorem damageTsr_lcr (s : State) : (damageTsr s).lcr = s.lcr := rfl
@[simp] theorem damageTsr_mcr (s : State) : (damageTsr s).mcr = s.mcr := rfl
@[simp] theorem damageTsr_dll (s : State) : (damageTsr s).dll = s.dll := rfl
@[simp] theorem damageTsr_dlh (s : State) : (damageTsr s).dlh = s.dlh := rfl
@[simp] theorem damageTsr_txq (s : State) : (damageTsr s).txq = s.txq := rfl
@[simp] theorem damageTsr_rxq (s : State) : (damageTsr s).rxq = s.rxq := rfl
@[simp] theorem damageTsr_tsr (s : State) : (damageTsr s).tsr = s.tsr.map (fun f => { f with ok := false }) := rfl
@[simp] theorem damageTsr_txLine (s : State) : (damageTsr s).txLine = s.txLine := rfl
@[simp] theorem damageTsr_rxLine (s : State) : (damageTsr s).rxLine = s.rxLine := rfl
@[simp] theorem damageTsr_txOverrun (s : State) : (damageTsr s).txOverrun = s.txOverrun := rfl
@[simp] theorem damageTsr_rxOverrun (s : State) : (damageTsr s).rxOverrun = s.rxOverrun := rfl
@[simp] theorem damageTsr_txLost (s : State) : (damageTsr s).txLost = s.txLost := rfl
@[simp] theorem damageTsr_rxLost (s : State) : (damageTsr s).rxLost = s.rxLost := rfl
@[simp] theorem damageTsr_refused (s : State) : (damageTsr s).refused = s.refused := rfl
@[simp] theorem damageTsr_seq (s : State) : (damageTsr s).seq = s.seq := rfl
@[simp] theorem damageTsr_reads (s : State) : (damageTsr s).reads = s.reads := rfl
@[simp] theorem damageTsr_results (s : State) : (damageTsr s).results = s.results := rfl
@[simp] theorem damageTsr_program (s : State) : (damageTsr s).program = s.program := rfl
@[simp] theorem damageTsr_schedule (s : State) : (damageTsr s).schedule = s.schedule := rfl
@[simp] theorem damageTsr_draws (s : State) : (damageTsr s).draws = s.draws := rfl

/-! ## `afterMove`: a move taken off the schedule -/

@[simp] theorem afterMove_platform (s : State) : (s.afterMove).platform = s.platform := rfl
@[simp] theorem afterMove_ier (s : State) : (s.afterMove).ier = s.ier := rfl
@[simp] theorem afterMove_fcr (s : State) : (s.afterMove).fcr = s.fcr := rfl
@[simp] theorem afterMove_fifoEn (s : State) : (s.afterMove).fifoEn = s.fifoEn := rfl
@[simp] theorem afterMove_lcr (s : State) : (s.afterMove).lcr = s.lcr := rfl
@[simp] theorem afterMove_mcr (s : State) : (s.afterMove).mcr = s.mcr := rfl
@[simp] theorem afterMove_dll (s : State) : (s.afterMove).dll = s.dll := rfl
@[simp] theorem afterMove_dlh (s : State) : (s.afterMove).dlh = s.dlh := rfl
@[simp] theorem afterMove_txq (s : State) : (s.afterMove).txq = s.txq := rfl
@[simp] theorem afterMove_rxq (s : State) : (s.afterMove).rxq = s.rxq := rfl
@[simp] theorem afterMove_tsr (s : State) : (s.afterMove).tsr = s.tsr := rfl
@[simp] theorem afterMove_txLine (s : State) : (s.afterMove).txLine = s.txLine := rfl
@[simp] theorem afterMove_rxLine (s : State) : (s.afterMove).rxLine = s.rxLine := rfl
@[simp] theorem afterMove_txOverrun (s : State) : (s.afterMove).txOverrun = s.txOverrun := rfl
@[simp] theorem afterMove_rxOverrun (s : State) : (s.afterMove).rxOverrun = s.rxOverrun := rfl
@[simp] theorem afterMove_txLost (s : State) : (s.afterMove).txLost = s.txLost := rfl
@[simp] theorem afterMove_rxLost (s : State) : (s.afterMove).rxLost = s.rxLost := rfl
@[simp] theorem afterMove_refused (s : State) : (s.afterMove).refused = s.refused := rfl
@[simp] theorem afterMove_seq (s : State) : (s.afterMove).seq = s.seq := rfl
@[simp] theorem afterMove_reads (s : State) : (s.afterMove).reads = s.reads := rfl
@[simp] theorem afterMove_results (s : State) : (s.afterMove).results = s.results := rfl
@[simp] theorem afterMove_program (s : State) : (s.afterMove).program = s.program := rfl
@[simp] theorem afterMove_schedule (s : State) : (s.afterMove).schedule = s.schedule.tail := rfl
@[simp] theorem afterMove_draws (s : State) : (s.afterMove).draws = s.draws := rfl

/-! ## `damageIfChanged`: only the shift register can change -/

@[simp] theorem damageIfChanged_platform (old d : Byte) (s : State) : (damageIfChanged old d s).platform = s.platform := by
  unfold damageIfChanged; split <;> rfl
@[simp] theorem damageIfChanged_ier (old d : Byte) (s : State) : (damageIfChanged old d s).ier = s.ier := by
  unfold damageIfChanged; split <;> rfl
@[simp] theorem damageIfChanged_fcr (old d : Byte) (s : State) : (damageIfChanged old d s).fcr = s.fcr := by
  unfold damageIfChanged; split <;> rfl
@[simp] theorem damageIfChanged_fifoEn (old d : Byte) (s : State) : (damageIfChanged old d s).fifoEn = s.fifoEn := by
  unfold damageIfChanged; split <;> rfl
@[simp] theorem damageIfChanged_lcr (old d : Byte) (s : State) : (damageIfChanged old d s).lcr = s.lcr := by
  unfold damageIfChanged; split <;> rfl
@[simp] theorem damageIfChanged_mcr (old d : Byte) (s : State) : (damageIfChanged old d s).mcr = s.mcr := by
  unfold damageIfChanged; split <;> rfl
@[simp] theorem damageIfChanged_dll (old d : Byte) (s : State) : (damageIfChanged old d s).dll = s.dll := by
  unfold damageIfChanged; split <;> rfl
@[simp] theorem damageIfChanged_dlh (old d : Byte) (s : State) : (damageIfChanged old d s).dlh = s.dlh := by
  unfold damageIfChanged; split <;> rfl
@[simp] theorem damageIfChanged_txq (old d : Byte) (s : State) : (damageIfChanged old d s).txq = s.txq := by
  unfold damageIfChanged; split <;> rfl
@[simp] theorem damageIfChanged_rxq (old d : Byte) (s : State) : (damageIfChanged old d s).rxq = s.rxq := by
  unfold damageIfChanged; split <;> rfl
@[simp] theorem damageIfChanged_tsr (old d : Byte) (s : State) : (damageIfChanged old d s).tsr =
    if d = old then s.tsr else s.tsr.map (fun f => { f with ok := false }) := by
  unfold damageIfChanged; split <;> rfl
@[simp] theorem damageIfChanged_txLine (old d : Byte) (s : State) : (damageIfChanged old d s).txLine = s.txLine := by
  unfold damageIfChanged; split <;> rfl
@[simp] theorem damageIfChanged_rxLine (old d : Byte) (s : State) : (damageIfChanged old d s).rxLine = s.rxLine := by
  unfold damageIfChanged; split <;> rfl
@[simp] theorem damageIfChanged_txOverrun (old d : Byte) (s : State) : (damageIfChanged old d s).txOverrun = s.txOverrun := by
  unfold damageIfChanged; split <;> rfl
@[simp] theorem damageIfChanged_rxOverrun (old d : Byte) (s : State) : (damageIfChanged old d s).rxOverrun = s.rxOverrun := by
  unfold damageIfChanged; split <;> rfl
@[simp] theorem damageIfChanged_txLost (old d : Byte) (s : State) : (damageIfChanged old d s).txLost = s.txLost := by
  unfold damageIfChanged; split <;> rfl
@[simp] theorem damageIfChanged_rxLost (old d : Byte) (s : State) : (damageIfChanged old d s).rxLost = s.rxLost := by
  unfold damageIfChanged; split <;> rfl
@[simp] theorem damageIfChanged_refused (old d : Byte) (s : State) : (damageIfChanged old d s).refused = s.refused := by
  unfold damageIfChanged; split <;> rfl
@[simp] theorem damageIfChanged_seq (old d : Byte) (s : State) : (damageIfChanged old d s).seq = s.seq := by
  unfold damageIfChanged; split <;> rfl
@[simp] theorem damageIfChanged_reads (old d : Byte) (s : State) : (damageIfChanged old d s).reads = s.reads := by
  unfold damageIfChanged; split <;> rfl
@[simp] theorem damageIfChanged_results (old d : Byte) (s : State) : (damageIfChanged old d s).results = s.results := by
  unfold damageIfChanged; split <;> rfl
@[simp] theorem damageIfChanged_program (old d : Byte) (s : State) : (damageIfChanged old d s).program = s.program := by
  unfold damageIfChanged; split <;> rfl
@[simp] theorem damageIfChanged_schedule (old d : Byte) (s : State) : (damageIfChanged old d s).schedule = s.schedule := by
  unfold damageIfChanged; split <;> rfl
@[simp] theorem damageIfChanged_draws (old d : Byte) (s : State) : (damageIfChanged old d s).draws = s.draws := by
  unfold damageIfChanged; split <;> rfl

/-! ## The views of the registers and queues see none of these updates -/

@[simp] theorem latch_returnByte (v : Byte) (s : State) : (returnByte v s).latch = s.latch := rfl
@[simp] theorem latch_countDraw (s : State) : (countDraw s).latch = s.latch := rfl
@[simp] theorem latch_returnDraw (s : State) : (returnDraw s).latch = s.latch := rfl
@[simp] theorem latch_refuse (r : Reason) (s : State) : (refuse r s).latch = s.latch := rfl
@[simp] theorem latch_raiseTxOverrun (d : Byte) (s : State) : (raiseTxOverrun d s).latch = s.latch := rfl
@[simp] theorem latch_raiseRxOverrun (b : Byte) (s : State) : (raiseRxOverrun b s).latch = s.latch := rfl
@[simp] theorem latch_damageTsr (s : State) : (damageTsr s).latch = s.latch := rfl
@[simp] theorem latch_afterMove (s : State) : (s.afterMove).latch = s.latch := rfl
@[simp] theorem latch_damageIfChanged (old d : Byte) (s : State) : (damageIfChanged old d s).latch = s.latch := by
  unfold damageIfChanged; split <;> rfl
@[simp] theorem divisor_returnByte (v : Byte) (s : State) : (returnByte v s).divisor = s.divisor := rfl
@[simp] theorem divisor_countDraw (s : State) : (countDraw s).divisor = s.divisor := rfl
@[simp] theorem divisor_returnDraw (s : State) : (returnDraw s).divisor = s.divisor := rfl
@[simp] theorem divisor_refuse (r : Reason) (s : State) : (refuse r s).divisor = s.divisor := rfl
@[simp] theorem divisor_raiseTxOverrun (d : Byte) (s : State) : (raiseTxOverrun d s).divisor = s.divisor := rfl
@[simp] theorem divisor_raiseRxOverrun (b : Byte) (s : State) : (raiseRxOverrun b s).divisor = s.divisor := rfl
@[simp] theorem divisor_damageTsr (s : State) : (damageTsr s).divisor = s.divisor := rfl
@[simp] theorem divisor_afterMove (s : State) : (s.afterMove).divisor = s.divisor := rfl
@[simp] theorem divisor_damageIfChanged (old d : Byte) (s : State) : (damageIfChanged old d s).divisor = s.divisor := by
  unfold damageIfChanged; split <;> rfl
@[simp] theorem configured_returnByte (v : Byte) (s : State) : (returnByte v s).configured = s.configured := rfl
@[simp] theorem configured_countDraw (s : State) : (countDraw s).configured = s.configured := rfl
@[simp] theorem configured_returnDraw (s : State) : (returnDraw s).configured = s.configured := rfl
@[simp] theorem configured_refuse (r : Reason) (s : State) : (refuse r s).configured = s.configured := rfl
@[simp] theorem configured_raiseTxOverrun (d : Byte) (s : State) : (raiseTxOverrun d s).configured = s.configured := rfl
@[simp] theorem configured_raiseRxOverrun (b : Byte) (s : State) : (raiseRxOverrun b s).configured = s.configured := rfl
@[simp] theorem configured_damageTsr (s : State) : (damageTsr s).configured = s.configured := rfl
@[simp] theorem configured_afterMove (s : State) : (s.afterMove).configured = s.configured := rfl
@[simp] theorem configured_damageIfChanged (old d : Byte) (s : State) : (damageIfChanged old d s).configured = s.configured := by
  unfold damageIfChanged; split <;> rfl
@[simp] theorem capTx_returnByte (v : Byte) (s : State) : (returnByte v s).capTx = s.capTx := rfl
@[simp] theorem capTx_countDraw (s : State) : (countDraw s).capTx = s.capTx := rfl
@[simp] theorem capTx_returnDraw (s : State) : (returnDraw s).capTx = s.capTx := rfl
@[simp] theorem capTx_refuse (r : Reason) (s : State) : (refuse r s).capTx = s.capTx := rfl
@[simp] theorem capTx_raiseTxOverrun (d : Byte) (s : State) : (raiseTxOverrun d s).capTx = s.capTx := rfl
@[simp] theorem capTx_raiseRxOverrun (b : Byte) (s : State) : (raiseRxOverrun b s).capTx = s.capTx := rfl
@[simp] theorem capTx_damageTsr (s : State) : (damageTsr s).capTx = s.capTx := rfl
@[simp] theorem capTx_afterMove (s : State) : (s.afterMove).capTx = s.capTx := rfl
@[simp] theorem capTx_damageIfChanged (old d : Byte) (s : State) : (damageIfChanged old d s).capTx = s.capTx := by
  unfold damageIfChanged; split <;> rfl
@[simp] theorem capRx_returnByte (v : Byte) (s : State) : (returnByte v s).capRx = s.capRx := rfl
@[simp] theorem capRx_countDraw (s : State) : (countDraw s).capRx = s.capRx := rfl
@[simp] theorem capRx_returnDraw (s : State) : (returnDraw s).capRx = s.capRx := rfl
@[simp] theorem capRx_refuse (r : Reason) (s : State) : (refuse r s).capRx = s.capRx := rfl
@[simp] theorem capRx_raiseTxOverrun (d : Byte) (s : State) : (raiseTxOverrun d s).capRx = s.capRx := rfl
@[simp] theorem capRx_raiseRxOverrun (b : Byte) (s : State) : (raiseRxOverrun b s).capRx = s.capRx := rfl
@[simp] theorem capRx_damageTsr (s : State) : (damageTsr s).capRx = s.capRx := rfl
@[simp] theorem capRx_afterMove (s : State) : (s.afterMove).capRx = s.capRx := rfl
@[simp] theorem capRx_damageIfChanged (old d : Byte) (s : State) : (damageIfChanged old d s).capRx = s.capRx := by
  unfold damageIfChanged; split <;> rfl
@[simp] theorem txFree_returnByte (v : Byte) (s : State) : (returnByte v s).txFree = s.txFree := rfl
@[simp] theorem txFree_countDraw (s : State) : (countDraw s).txFree = s.txFree := rfl
@[simp] theorem txFree_returnDraw (s : State) : (returnDraw s).txFree = s.txFree := rfl
@[simp] theorem txFree_refuse (r : Reason) (s : State) : (refuse r s).txFree = s.txFree := rfl
@[simp] theorem txFree_raiseTxOverrun (d : Byte) (s : State) : (raiseTxOverrun d s).txFree = s.txFree := rfl
@[simp] theorem txFree_raiseRxOverrun (b : Byte) (s : State) : (raiseRxOverrun b s).txFree = s.txFree := rfl
@[simp] theorem txFree_damageTsr (s : State) : (damageTsr s).txFree = s.txFree := rfl
@[simp] theorem txFree_afterMove (s : State) : (s.afterMove).txFree = s.txFree := rfl
@[simp] theorem txFree_damageIfChanged (old d : Byte) (s : State) : (damageIfChanged old d s).txFree = s.txFree := by
  unfold damageIfChanged; split <;> rfl

/-- The capacities while the FIFO is on and while it is off (10_state.md R39, R40). -/
theorem capTx_of_fifoEn (s : State) (h : s.fifoEn = true) : s.capTx = s.platform.txDepth := by simp [State.capTx, h]
theorem capTx_of_not_fifoEn (s : State) (h : s.fifoEn = false) : s.capTx = 1 := by simp [State.capTx, h]
theorem capRx_of_fifoEn (s : State) (h : s.fifoEn = true) : s.capRx = s.platform.rxDepth := by simp [State.capRx, h]
theorem capRx_of_not_fifoEn (s : State) (h : s.fifoEn = false) : s.capRx = 1 := by simp [State.capRx, h]

/-- The possible damage of a configuration write, as one update of the shift register. -/
theorem damageIfChanged_eq (old d : Byte) (s : State) : damageIfChanged old d s =
    { s with tsr := if d = old then s.tsr else s.tsr.map (fun f => { f with ok := false }) } := by
  unfold damageIfChanged; split <;> rfl

end Sys2Proof.Machine
end

