-- ==== Sys2Proof/Laws/Ops.lean ====
section
/-! SUPPORT. What each shared operation can do, said once: the conditional meanings, the steps of the line agents, the bus
accesses of the sequencer, and one step of the machine. -/

namespace Sys2Proof.Machine

/-! ## Meanings with more than one outcome -/

/-- A read of RBR gives the host one byte: the head of the queue, which it takes off if `RX_READ_POPS`, or from an empty queue
the platform's empty value or a draw. -/
theorem execRbrRead_cases (s : State) :
    (∃ v rest, s.rxq = v :: rest ∧
      execRbrRead s = .next (returnByte v { s with rxq := if s.platform.rxReadPops then rest else v :: rest })) ∨
    (s.rxq = [] ∧ s.platform.rxEmptyValue = none ∧ execRbrRead s = .next (returnDraw s)) ∨
    ∃ v, s.rxq = [] ∧ s.platform.rxEmptyValue = some v ∧ execRbrRead s = .next (returnByte v s) := by
  cases h : s.rxq with
  | cons v rest => exact .inl ⟨v, rest, rfl, by simp [execRbrRead, h]⟩
  | nil =>
    cases e : s.platform.rxEmptyValue with
    | none => exact .inr (.inl ⟨rfl, rfl, by simp [execRbrRead, h, e]⟩)
    | some v => exact .inr (.inr ⟨v, rfl, rfl, by simp [execRbrRead, h, e]⟩)

/-- A write of THR queues the byte or raises the overrun mark. -/
theorem execThrWrite_cases (d : Byte) (s : State) :
    (s.txq.length < s.capTx ∧ execThrWrite d s = .next { s with txq := s.txq ++ [d] }) ∨
    (s.capTx ≤ s.txq.length ∧ execThrWrite d s = .next (raiseTxOverrun d s)) := by
  by_cases h : s.txq.length < s.capTx
  · exact .inl ⟨h, by simp [execThrWrite, h]⟩
  · exact .inr ⟨Nat.not_lt.mp h, by simp [execThrWrite, h]⟩

/-- A write of FCR is the FIFO clear or is refused. -/
theorem execFcrWrite_cases (d : Byte) (s : State) :
    (d = s.platform.fcrInit ∧
      execFcrWrite d s = .next { s with fcr := d, fifoEn := true, txq := [], rxq := [] }) ∨
    (d ≠ s.platform.fcrInit ∧ execFcrWrite d s = .next (refuse .refFcrValue s)) := by
  by_cases h : d = s.platform.fcrInit
  · exact .inl ⟨h, by simp [execFcrWrite, h]⟩
  · exact .inr ⟨h, by simp [execFcrWrite, h]⟩

/-! ## The line agents -/

/-- `TX_LOAD` moves the head of the queue to an idle shift register, or does nothing. -/
theorem txLoad_cases (s : State) :
    (∃ b rest, s.txq = b :: rest ∧ s.tsr = none ∧
      txLoad s = { s with txq := rest, tsr := some { b := b, ok := s.configured } }) ∨
    ((s.txq = [] ∨ s.tsr ≠ none) ∧ txLoad s = s) := by
  unfold txLoad
  split
  · exact .inl ⟨_, _, ‹_›, ‹_›, rfl⟩
  · rename_i h
    refine .inr ⟨?_, rfl⟩
    cases hq : s.txq with
    | nil => exact .inl rfl
    | cons b rest => exact .inr (fun ht => h b rest hq ht)

/-- `TX_DONE` puts the byte in flight on the line, or does nothing. -/
theorem txDone_cases (s : State) :
    (∃ f, s.tsr = some f ∧ txDone s = { s with txLine := s.txLine ++ [f.symbol], tsr := none }) ∨
    (s.tsr = none ∧ txDone s = s) := by
  cases h : s.tsr with
  | none => exact .inr ⟨rfl, by simp [txDone, h]⟩
  | some f => exact .inl ⟨f, rfl, by simp [txDone, h]⟩

/-- `RX_ARRIVE` in one update: the trace grows, and the byte is stored or the overrun mark raised. -/
theorem rxArrive_cases (b : Byte) (s : State) :
    (s.rxq.length < s.capRx ∧ rxArrive b s =
      { s with rxLine := s.rxLine ++ [b], rxq := s.rxq ++ [receivedByte b s],
               draws := if s.configured then s.draws else s.draws + 1 }) ∨
    (s.capRx ≤ s.rxq.length ∧ rxArrive b s =
      { s with rxLine := s.rxLine ++ [b], rxOverrun := true, rxLost := s.rxLost ++ [b],
               draws := if s.configured then s.draws else s.draws + 1 }) := by
  have hc : ({ s with rxLine := s.rxLine ++ [b] } : State).configured = s.configured := rfl
  by_cases h : s.rxq.length < s.capRx
  · refine .inl ⟨h, ?_⟩
    by_cases c : s.configured <;> simp [rxArrive, h, countArrivalDraw, hc, c, countDraw]
  · refine .inr ⟨Nat.not_lt.mp h, ?_⟩
    by_cases c : s.configured <;> simp [rxArrive, h, countArrivalDraw, hc, c, countDraw, raiseRxOverrun]

/-! ## Bus access -/

/-- A bus operation followed by the host's own update completes exactly when the operation does. -/
@[simp] theorem andThen_next (s : State) (f : State → State) : andThen (.next s) f = .next (f s) := rfl

/-- What `andThen` answered came from the operation it followed. -/
theorem andThen_eq_next {o : Host.Outcome State Fault Refusal} {f : State → State} {t : State}
    (h : andThen o f = .next t) : ∃ u, o = .next u ∧ t = f u := by
  cases o with
  | next u => exact ⟨u, rfl, by simpa [andThen] using h.symm⟩
  | fault r => simp [andThen] at h
  | refused r => simp [andThen] at h

/-- The byte a read has just returned is the last one. -/
@[simp] theorem lastRead_of_append {s : State} {l : List Byte} {v : Byte} (h : s.reads = l ++ [v]) : s.lastRead = v := by
  simp [State.lastRead, h]

@[simp] theorem lastRead_returnByte (v : Byte) (s : State) : (returnByte v s).lastRead = v :=
  lastRead_of_append rfl

@[simp] theorem lastRead_countDraw (s : State) : (countDraw s).lastRead = s.lastRead := rfl

/-- Offset 20 is LSR in either bank (30_encoding.md R73). -/
theorem busRead_lsr (s : State) : busRead 20#5 s = execLsrRead s := by
  simp [busRead, issue, readWord, decode_make, fixedRows, exec]

/-- Offset 0 is read as RBR or as DLL, as the latch says. -/
theorem busRead_offset0 (s : State) : busRead 0#5 s = if s.latch then execDllRead s else execRbrRead s := by
  cases h : s.latch <;> simp [busRead, issue, readWord, decode_make, fixedRows, exec, h]

/-- Offset 0 is written as THR or as DLL, as the latch says. -/
theorem busWrite_offset0 (d : Byte) (s : State) :
    busWrite 0#5 d s = if s.latch then execDllWrite d s else execThrWrite d s := by
  cases h : s.latch <;> simp [busWrite, issue, writeWord, decode_make, fixedRows, exec, h]

/-- Offset 4 is read as IER or as DLH, as the latch says. -/
theorem busRead_offset4 (s : State) : busRead 4#5 s = if s.latch then execDlhRead s else execIerRead s := by
  cases h : s.latch <;> simp [busRead, issue, readWord, decode_make, fixedRows, exec, h]

/-- Offset 4 is written as IER or as DLH, as the latch says. -/
theorem busWrite_offset4 (d : Byte) (s : State) :
    busWrite 4#5 d s = if s.latch then execDlhWrite d s else execIerWrite d s := by
  cases h : s.latch <;> simp [busWrite, issue, writeWord, decode_make, fixedRows, exec, h]

theorem busWrite_fcr (d : Byte) (s : State) : busWrite 8#5 d s = execFcrWrite d s := by
  simp [busWrite, issue, writeWord, decode_make, fixedRows, exec]

theorem busWrite_lcr (d : Byte) (s : State) : busWrite 12#5 d s = execLcrWrite d s := by
  simp [busWrite, issue, writeWord, decode_make, fixedRows, exec]

theorem busWrite_mcr (d : Byte) (s : State) : busWrite 16#5 d s = execMcrWrite d s := by
  simp [busWrite, issue, writeWord, decode_make, fixedRows, exec]

/-- On a legal ready-count platform the low offset reads the low byte of the count. -/
theorem busRead_txcntLo (s : State) (lo hi : Offset) (h : s.platform.wf = true) (hp : s.platform.probeTx = .count8 lo hi) :
    busRead lo s = execTxcntLoRead s := by
  simp_all [Platform.wf, mappedOffsets, busRead, issue, readWord, decode_make, fixedRows, txcntRows, exec]

/-- On a legal ready-count platform the high offset reads the high byte of the count. -/
theorem busRead_txcntHi (s : State) (lo hi : Offset) (h : s.platform.wf = true) (hp : s.platform.probeTx = .count8 lo hi) :
    busRead hi s = execTxcntHiRead s := by
  have hne : (hi == lo) = false := by
    simp [Platform.wf, hp] at h
    simpa using fun e => h.2.1.1 e.symm
  simp_all [Platform.wf, mappedOffsets, busRead, issue, readWord, decode_make, fixedRows, txcntRows, exec]

/-- Every step of the initialisation writes one of the mapped offsets. -/
theorem issue_initWord (s : State) (d : BitVec 16) (k : InitStep) : issue (initWord s.platform d k) s =
    match k with
    | .disableInterrupts => busWrite 4#5 0x00 s
    | .setLatch => busWrite 12#5 0x80 s
    | .divisorLow => busWrite 0#5 (divisorLowByte d) s
    | .divisorHigh => busWrite 4#5 (divisorHighByte d) s
    | .clearLatch => busWrite 12#5 0x03 s
    | .fifoInit => busWrite 8#5 s.platform.fcrInit s
    | .autoflow => busWrite 16#5 0x20 s := by
  cases k <;> rfl

/-- An access misses the window exactly when it ends below it or begins above it. -/
theorem touchesWindow_eq_false_iff (p : Platform) (addr n : Nat) :
    touchesWindow p addr n = false ↔ addr + n ≤ p.uartBase ∨ p.uartBase + 32 ≤ addr := by
  simp only [touchesWindow, Bool.and_eq_false_iff, decide_eq_false_iff_not, Nat.not_lt]

/-! ## The host's step, by position -/

/-- From `IDLE` the host issues the next operation of its program. -/
theorem hostStep_idle {s : State} {op : HostOp} {rest : List HostOp} (h : s.seq = .idle) (hp : s.program = op :: rest) :
    hostStep s = startOp op { s with program := rest } := by
  unfold hostStep; rw [h, hp]

/-- With nothing to issue the host does nothing. -/
theorem hostStep_done {s : State} (h : s.seq = .idle) (hp : s.program = []) : hostStep s = .next s := by
  unfold hostStep; rw [h, hp]

theorem hostStep_txReady {s : State} (h : s.seq = .txReady) : hostStep s = txProbe .txReadyHi finishTxReady s := by
  unfold hostStep; rw [h]

theorem hostStep_txReadyHi {s : State} {lo : Byte} (h : s.seq = .txReadyHi lo) :
    hostStep s = txProbeHi lo finishTxReady s := by
  unfold hostStep; rw [h]

theorem hostStep_rxReady {s : State} (h : s.seq = .rxReady) : hostStep s = rxProbe finishRxReady s := by
  unfold hostStep; rw [h]

theorem hostStep_sendWait {s : State} {c : Byte} (h : s.seq = .sendWait c) :
    hostStep s = txProbe (.sendWaitHi c) (finishSendProbe c) s := by
  unfold hostStep; rw [h]

theorem hostStep_sendWaitHi {s : State} {c lo : Byte} (h : s.seq = .sendWaitHi c lo) :
    hostStep s = txProbeHi lo (finishSendProbe c) s := by
  unfold hostStep; rw [h]

theorem hostStep_sendWrite {s : State} {c : Byte} (h : s.seq = .sendWrite c) :
    hostStep s = andThen (busWrite 0#5 c s) (fun t => { t with seq := .idle }) := by
  unfold hostStep; rw [h]

theorem hostStep_pollProbe {s : State} (h : s.seq = .pollProbe) : hostStep s = rxProbe finishPollProbe s := by
  unfold hostStep; rw [h]

theorem hostStep_pollRead {s : State} (h : s.seq = .pollRead) : hostStep s = andThen (busRead 0#5 s) finishPollRead := by
  unfold hostStep; rw [h]

theorem hostStep_init {s : State} {k : InitStep} {d : BitVec 16} (h : s.seq = .init k d) :
    hostStep s = andThen (issue (initWord s.platform d k) s) (fun t => { t with seq := initNext d k }) := by
  unfold hostStep; rw [h]

/-! ## What the probes see -/

/-- The bit test of `TX_READY` on a byte of LSR is `thre`, whatever the draw (41_link_state_probe.md R120). -/
theorem threBit_lsrValue (u : Byte) (s : State) : threBit (lsrValue u s) = s.txq.isEmpty := by
  have h : ∀ v : Byte, threBit v = v.getLsbD 5 := by unfold threBit; decide
  rw [h]
  cases hr : s.rxq <;> cases ht : s.txq <;> simp [lsrValue, State.dr, State.thre, hr, ht]

/-- The bit test of `RX_READY` on a byte of LSR is `dr`, whatever the draw (41_link_state_probe.md R123). -/
theorem drBit_lsrValue (u : Byte) (s : State) : drBit (lsrValue u s) = !s.rxq.isEmpty := by
  have h : ∀ v : Byte, drBit v = v.getLsbD 0 := by unfold drBit; decide
  rw [h]
  cases hr : s.rxq <;> cases ht : s.txq <;> simp [lsrValue, State.dr, State.thre, hr, ht]

/-- The two bytes of the count, while it fits 16 bits (10_state.md R38). -/
theorem txcnt_low (s : State) (h : s.txFree < 65536) : s.txcnt.extractLsb' 0 8 = BitVec.ofNat 8 s.txFree := by
  apply BitVec.eq_of_toNat_eq
  simp [State.txcnt, h, BitVec.extractLsb', Nat.shiftRight_eq_div_pow]

theorem txcnt_high (s : State) (h : s.txFree < 65536) : s.txcnt.extractLsb' 8 8 = BitVec.ofNat 8 (s.txFree / 256) := by
  apply BitVec.eq_of_toNat_eq
  simp [State.txcnt, h, BitVec.extractLsb', Nat.shiftRight_eq_div_pow]
  omega

/-- The free space fits 16 bits when the depth does. -/
theorem txFree_lt_of_txDepth (s : State) (h : s.platform.txDepth < 65536) : s.txFree < 65536 := by
  unfold State.txFree State.capTx
  cases s.fifoEn <;> simp only [cond_true, cond_false] <;> omega

/-! ## One step -/

/-- A step is the move of the schedule's head, or the host's when the schedule is empty. -/
theorem step_eq (s : State) : step s =
    match s.schedule with
    | [] => hostStep s.afterMove
    | m :: _ => moveStep m s.afterMove := by
  unfold step State.nextMove
  cases s.schedule <;> rfl

end Sys2Proof.Machine
end

