-- ==== Sys2Proof/Laws/PerInstr.lean ====
section
/-! SUPPORT. The family `Issuable`, one lemma per constructor: a well-formed operation is issued as a transaction word, except
the bad word, which is none (30_encoding.md R71, R74). -/

namespace Sys2Proof.Laws

/-- The instruction's word passes the check of 30_encoding.md R71 exactly when the instruction is not `BAD_WORD`. -/
def Issuable.Statement (i : Instr) : Prop :=
  ∀ p : Platform, i.wf p = true → ((encode p i).isTransaction = true ↔ ∀ t, i ≠ .badWord t)

theorem Issuable.rbrRead : Issuable.Statement .rbrRead := fun _ _ => by simp [encode, readWord]
theorem Issuable.thrWrite (d : Byte) : Issuable.Statement (.thrWrite d) := fun _ _ => by simp [encode, writeWord]
theorem Issuable.dllRead : Issuable.Statement .dllRead := fun _ _ => by simp [encode, readWord]
theorem Issuable.dllWrite (d : Byte) : Issuable.Statement (.dllWrite d) := fun _ _ => by simp [encode, writeWord]
theorem Issuable.ierRead : Issuable.Statement .ierRead := fun _ _ => by simp [encode, readWord]
theorem Issuable.ierWrite (d : Byte) : Issuable.Statement (.ierWrite d) := fun _ _ => by simp [encode, writeWord]
theorem Issuable.dlhRead : Issuable.Statement .dlhRead := fun _ _ => by simp [encode, readWord]
theorem Issuable.dlhWrite (d : Byte) : Issuable.Statement (.dlhWrite d) := fun _ _ => by simp [encode, writeWord]
theorem Issuable.fcrWrite (d : Byte) : Issuable.Statement (.fcrWrite d) := fun _ _ => by simp [encode, writeWord]
theorem Issuable.off8Read : Issuable.Statement .off8Read := fun _ _ => by simp [encode, readWord]
theorem Issuable.lcrRead : Issuable.Statement .lcrRead := fun _ _ => by simp [encode, readWord]
theorem Issuable.lcrWrite (d : Byte) : Issuable.Statement (.lcrWrite d) := fun _ _ => by simp [encode, writeWord]
theorem Issuable.mcrRead : Issuable.Statement .mcrRead := fun _ _ => by simp [encode, readWord]
theorem Issuable.mcrWrite (d : Byte) : Issuable.Statement (.mcrWrite d) := fun _ _ => by simp [encode, writeWord]
theorem Issuable.lsrRead : Issuable.Statement .lsrRead := fun _ _ => by simp [encode, readWord]
theorem Issuable.lsrWrite (d : Byte) : Issuable.Statement (.lsrWrite d) := fun _ _ => by simp [encode, writeWord]
theorem Issuable.txcntLoRead : Issuable.Statement .txcntLoRead := fun _ _ => by simp [encode, readWord]
theorem Issuable.txcntHiRead : Issuable.Statement .txcntHiRead := fun _ _ => by simp [encode, readWord]

/-- A well-formed reserved read carries no data. -/
theorem Issuable.reservedOffset (write : Bool) (off : Offset) (d : Byte) :
    Issuable.Statement (.reservedOffset write off d) := fun p h => by
  simp only [Instr.wf, Bool.and_eq_true] at h
  simpa [encode] using h.2

/-- A bad word is issued as it is. -/
theorem Issuable.badWord (t : TWord) : Issuable.Statement (.badWord t) := fun p h => by
  have h : t.isTransaction = false := by simpa [Instr.wf] using h
  simp [encode, h]

end Sys2Proof.Laws
end

