-- ==== Sys2Proof/Laws/Step.lean ====
section
/-! SUPPORT. What one step of the host can do, said once: it performs at most one bus operation, and the rest is its own
bookkeeping. -/

namespace Sys2Proof.Machine

/-- `n` draws returned to the host: `n` bytes more, and the counter advanced by `n`. -/
theorem returnDraws_eq (n : Nat) (s : State) :
    ∃ bytes : List Byte, bytes.length = n ∧
      returnDraws n s = { s with reads := s.reads ++ bytes, draws := s.draws + n } := by
  induction n generalizing s with
  | zero => exact ⟨[], rfl, by simp [returnDraws]⟩
  | succ n ih =>
    obtain ⟨l, hl, h⟩ := ih (returnDraw s)
    refine ⟨s.nextDraw :: l, by simp [hl], ?_⟩
    rw [returnDraws, h]
    simp [returnDraw, returnByte, countDraw, Nat.add_comm, Nat.add_left_comm]

/-- What the host's own update after a bus operation may touch: its position and its results. -/
def HostUpdate (f : State → State) : Prop :=
  ∀ u, ∃ (q : SeqState) (res : List Result), f u = { u with seq := q, results := u.results ++ res }

theorem hostUpdate_seq (q : State → SeqState) : HostUpdate (fun t => { t with seq := q t }) :=
  fun u => ⟨q u, [], by simp⟩

theorem hostUpdate_finishTxReady (r : State → Bool) : HostUpdate (fun t => finishTxReady (r t) t) := fun _ => ⟨_, _, rfl⟩
theorem hostUpdate_finishRxReady (r : State → Bool) : HostUpdate (fun t => finishRxReady (r t) t) := fun _ => ⟨_, _, rfl⟩
theorem hostUpdate_finishSendProbe (c : Byte) (r : State → Bool) : HostUpdate (fun t => finishSendProbe c (r t) t) :=
  fun u => ⟨if r u then .sendWrite c else .sendWait c, [], by simp [finishSendProbe]⟩
theorem hostUpdate_finishPollProbe (r : State → Bool) : HostUpdate (fun t => finishPollProbe (r t) t) := fun u => by
  cases h : r u
  · exact ⟨.idle, [.polled none], by simp [finishPollProbe, h]⟩
  · exact ⟨.pollRead, [], by simp [finishPollProbe, h]⟩
theorem hostUpdate_finishPollRead : HostUpdate finishPollRead := fun _ => ⟨_, _, rfl⟩

/-- One bus operation in the state `s`, then an update of the host's own. -/
def OneOperation (s t : State) : Prop :=
  ∃ (i : Instr) (u : State) (q : SeqState) (res : List Result),
    exec i s = .next u ∧ t = { u with seq := q, results := u.results ++ res }

theorem oneOperation_of_andThen {w : TWord} {s t : State} {f : State → State} (hf : HostUpdate f)
    (h : andThen (issue w s) f = .next t) : OneOperation s t := by
  obtain ⟨u, hu, rfl⟩ := andThen_eq_next h
  obtain ⟨q, res, e⟩ := hf u
  exact ⟨_, u, q, res, hu, e⟩

theorem oneOperation_of_issue {w : TWord} {s t : State} (h : issue w s = .next t) : OneOperation s t :=
  ⟨_, t, t.seq, [], h, by simp⟩

/-- From `IDLE`: one bus operation, a wide access that is refused, or the host's own bookkeeping. -/
theorem startOp_cases {op : HostOp} {s t : State} (h : startOp op s = .next t) :
    OneOperation s t ∨
    (∃ n, t = returnDraws n (refuse .refWidth s)) ∨
    ∃ q : SeqState, t = { s with seq := q } ∨ t = refuse .refDivisor s := by
  cases op with
  | transaction w => exact .inl (oneOperation_of_issue h)
  | memRead addr n =>
    simp only [startOp, memRead] at h
    split at h
    · cases n with
      | byte => exact .inl (oneOperation_of_issue h)
      | half | word | double => exact .inr (.inl ⟨_, by simpa using h.symm⟩)
    · simp at h
  | memWrite addr n v =>
    simp only [startOp, memWrite] at h
    split at h
    · cases n with
      | byte => exact .inl (oneOperation_of_issue h)
      | half | word | double => exact .inr (.inl ⟨0, by simpa [returnDraws] using h.symm⟩)
    · simp at h
  | txReady => exact .inr (.inr ⟨.txReady, .inl (by simpa [startOp] using h.symm)⟩)
  | rxReady => exact .inr (.inr ⟨.rxReady, .inl (by simpa [startOp] using h.symm)⟩)
  | sendChar c => exact .inr (.inr ⟨.sendWait c, .inl (by simpa [startOp] using h.symm)⟩)
  | pollChar => exact .inr (.inr ⟨.pollProbe, .inl (by simpa [startOp] using h.symm)⟩)
  | uartInit frequency baud =>
    cases hd : divisorOperand frequency baud with
    | some d => exact .inr (.inr ⟨.init .disableInterrupts d, .inl (by simpa [startOp, hd] using h.symm)⟩)
    | none => exact .inr (.inr ⟨.idle, .inr (by simpa [startOp, hd] using h.symm)⟩)

/-- The first read of a transmit probe. -/
theorem txProbe_oneOperation {keep : Byte → SeqState} {finish : Bool → State → State} {s t : State}
    (hf : HostUpdate (fun t => finish (threBit t.lastRead) t)) (h : txProbe keep finish s = .next t) :
    OneOperation s t := by
  unfold txProbe at h
  split at h
  · exact oneOperation_of_andThen hf h
  · exact oneOperation_of_andThen (hostUpdate_seq _) h

/-- The second read of a transmit probe. -/
theorem txProbeHi_oneOperation {lo : Byte} {finish : Bool → State → State} {s t : State}
    (hf : ∀ r : State → Bool, HostUpdate (fun t => finish (r t) t)) (h : txProbeHi lo finish s = .next t) :
    OneOperation s t := by
  unfold txProbeHi at h
  split at h <;> exact oneOperation_of_andThen (hf _) h

/-- The read of a receive probe. -/
theorem rxProbe_oneOperation {finish : Bool → State → State} {s t : State}
    (hf : ∀ r : State → Bool, HostUpdate (fun t => finish (r t) t)) (h : rxProbe finish s = .next t) :
    OneOperation s t := by
  unfold rxProbe at h
  split at h <;> exact oneOperation_of_andThen (hf _) h

/-- One step of the host: nothing at all, an operation issued from `IDLE`, or one bus operation of the composite it is in. -/
theorem hostStep_cases {s t : State} (h : hostStep s = .next t) :
    (s.seq = .idle ∧ s.program = [] ∧ t = s) ∨
    (∃ op rest, s.seq = .idle ∧ s.program = op :: rest ∧ startOp op { s with program := rest } = .next t) ∨
    (s.seq ≠ .idle ∧ OneOperation s t) := by
  cases hs : s.seq with
  | idle =>
    cases hp : s.program with
    | nil => exact .inl ⟨rfl, rfl, by simpa [hostStep_done hs hp] using h.symm⟩
    | cons op rest => exact .inr (.inl ⟨op, rest, rfl, rfl, by simpa [hs] using (hostStep_idle hs hp).symm.trans h⟩)
  | txReady =>
    rw [hostStep_txReady hs] at h
    exact .inr (.inr ⟨nofun, txProbe_oneOperation (hostUpdate_finishTxReady _) h⟩)
  | txReadyHi lo =>
    rw [hostStep_txReadyHi hs] at h
    exact .inr (.inr ⟨nofun, txProbeHi_oneOperation hostUpdate_finishTxReady h⟩)
  | rxReady =>
    rw [hostStep_rxReady hs] at h
    exact .inr (.inr ⟨nofun, rxProbe_oneOperation hostUpdate_finishRxReady h⟩)
  | sendWait c =>
    rw [hostStep_sendWait hs] at h
    exact .inr (.inr ⟨nofun, txProbe_oneOperation (hostUpdate_finishSendProbe c _) h⟩)
  | sendWaitHi c lo =>
    rw [hostStep_sendWaitHi hs] at h
    exact .inr (.inr ⟨nofun, txProbeHi_oneOperation (hostUpdate_finishSendProbe c) h⟩)
  | sendWrite c =>
    rw [hostStep_sendWrite hs] at h
    exact .inr (.inr ⟨nofun, oneOperation_of_andThen (hostUpdate_seq _) h⟩)
  | pollProbe =>
    rw [hostStep_pollProbe hs] at h
    exact .inr (.inr ⟨nofun, rxProbe_oneOperation hostUpdate_finishPollProbe h⟩)
  | pollRead =>
    rw [hostStep_pollRead hs] at h
    exact .inr (.inr ⟨nofun, oneOperation_of_andThen hostUpdate_finishPollRead h⟩)
  | init k d =>
    rw [hostStep_init hs] at h
    exact .inr (.inr ⟨nofun, oneOperation_of_andThen (hostUpdate_seq _) h⟩)

/-- What a step of the host leaves, whatever it did: a bus operation in a state that differs from `s` in the host's
bookkeeping only, or that bookkeeping alone. -/
theorem hostStep_shape {s t : State} (h : hostStep s = .next t) :
    (∃ prog, OneOperation { s with program := prog } t) ∨
    ∃ (q : SeqState) (prog : List HostOp) (r : Option Reason) (bytes : List Byte) (n : Nat),
      t = { s with seq := q, program := prog, refused := s.refused.or r, reads := s.reads ++ bytes, draws := s.draws + n } := by
  obtain ⟨-, -, rfl⟩ | ⟨op, rest, hs, -, ho⟩ | ⟨-, ho⟩ := hostStep_cases h
  · exact .inr ⟨t.seq, t.program, none, [], 0, by simp⟩
  · obtain ho | ⟨n, rfl⟩ | ⟨q, rfl | rfl⟩ := startOp_cases ho
    · exact .inl ⟨rest, ho⟩
    · obtain ⟨l, -, e⟩ := returnDraws_eq n (refuse .refWidth { s with program := rest })
      exact .inr ⟨s.seq, rest, some .refWidth, l, n, by rw [e]; rfl⟩
    · exact .inr ⟨q, rest, none, [], 0, by simp⟩
    · exact .inr ⟨s.seq, rest, some .refDivisor, [], 0, by simp [refuse]⟩
  · exact .inl ⟨s.program, ho⟩

end Sys2Proof.Machine
end

