-- ==== Sys2Proof/Tests/Slice0.lean ====
section
/-! SUPPORT. Tests of the model against the worked vectors of 95_test_vectors.md (named at each test), ill-formed terms that the
checks refuse, and for every statement with hypotheses a witness that meets them, clause by clause. -/

namespace Sys2Proof.Tests

open Sys2Proof.Machine

/-! ## Helpers -/

/-- The platform of the vectors: status-bit probes, depths 16, `FCR_INIT = 0xC7`. -/
def platA : Platform := { Platform.reference with probeTx := .thre }

/-- The same with the ready-count at offsets 24 and 28 (vector A23). -/
def platB : Platform := Platform.reference

/-- A raw-value platform whose reads pop, with the empty value 0x00 (vector L15). -/
def platPop : Platform := { platA with probeRx := .nonzero true (some 0) }

/-- A raw-value platform whose reads do not pop (vector L12). -/
def platKeep : Platform := { platA with probeRx := .nonzero false (some 0) }

/-- `INIT_DONE` on a platform, with the divisor 62 (70_reset_and_hazards.md R206). -/
def ready (p : Platform) : State :=
  { State.reset with platform := p, lcr := 0x03, mcr := 0x20, dll := 0x3E, fcr := 0xC7, fifoEn := true }

/-- The same with the mode latch set. -/
def latched (p : Platform) : State := { ready p with lcr := 0x83 }

/-- What a field of the next state is. -/
def after {α : Type} (o : Host.Outcome State Fault Refusal) (f : State → α) : Option α :=
  match o with
  | .next t => some (f t)
  | .fault _ => none
  | .refused _ => none

/-- A transaction word from its bits, `W`, `L`, bit 13, `off`, `data` (30_encoding.md R71). -/
def word (w l z : BitVec 1) (off : BitVec 5) (d : BitVec 8) : TWord := (w ++ l ++ z ++ off ++ d : BitVec 16)

/-! ## Ill-formed terms are refused -/

theorem test_wf_txcnt_needs_count8 : Instr.wf platA .txcntLoRead = false ∧ Instr.wf platA .txcntHiRead = false := by decide
theorem test_wf_reserved_claimed_offset : Instr.wf platB (.reservedOffset true 12 0) = false := by decide
theorem test_wf_reserved_txcnt_read : Instr.wf platB (.reservedOffset false 24 0) = false := by decide
theorem test_wf_reserved_read_with_data : Instr.wf platB (.reservedOffset false 1 0x55) = false := by decide
theorem test_wf_badWord_of_a_transaction : Instr.wf platB (.badWord 0x1400) = false := by decide
theorem test_platform_tx_depth_zero : Platform.wf { platA with txDepth := 0 } = false := by decide
theorem test_platform_rx_depth_zero : Platform.wf { platA with rxDepth := 0 } = false := by decide
theorem test_platform_equal_offsets : Platform.wf { platA with probeTx := .count8 24 24 } = false := by decide
theorem test_platform_low_offset_mapped : Platform.wf { platA with probeTx := .count8 20 28 } = false := by decide
theorem test_platform_high_offset_mapped : Platform.wf { platA with probeTx := .count8 24 0 } = false := by decide
theorem test_inBank_wrong_bank : Instr.inBank true .rbrRead = false ∧ Instr.inBank false .dllRead = false := by decide
theorem test_wf_well_formed :
    platA.wf = true ∧ platB.wf = true ∧ Instr.wf platB .txcntLoRead = true ∧ Instr.wf platB (.reservedOffset true 24 7) = true ∧
      Instr.wf platB (.badWord 0x2000) = true := by decide

/-! ## Decoding, from words written out bit by bit (30_encoding.md R73, R74) -/

theorem test_decode_rbrRead : decode platB false (word 0b0 0b0 0b0 0b00000 0b00000000) = .rbrRead := by decide
theorem test_decode_thrWrite : decode platB false (word 0b1 0b0 0b0 0b00000 0b01000001) = .thrWrite 0x41 := by decide
theorem test_decode_dllRead : decode platB true (word 0b0 0b0 0b0 0b00000 0b00000000) = .dllRead := by decide
theorem test_decode_dllWrite : decode platB true (word 0b1 0b0 0b0 0b00000 0b00111110) = .dllWrite 0x3E := by decide
theorem test_decode_ierRead : decode platB false (word 0b0 0b0 0b0 0b00100 0b00000000) = .ierRead := by decide
theorem test_decode_ierWrite : decode platB false (word 0b1 0b0 0b0 0b00100 0b00001111) = .ierWrite 0x0F := by decide
theorem test_decode_dlhRead : decode platB true (word 0b0 0b0 0b0 0b00100 0b00000000) = .dlhRead := by decide
theorem test_decode_dlhWrite : decode platB true (word 0b1 0b0 0b0 0b00100 0b00000010) = .dlhWrite 0x02 := by decide
theorem test_decode_fcrWrite : decode platB true (word 0b1 0b0 0b0 0b01000 0b11000111) = .fcrWrite 0xC7 := by decide
theorem test_decode_off8Read : decode platB false (word 0b0 0b0 0b0 0b01000 0b00000000) = .off8Read := by decide
theorem test_decode_lcrRead : decode platB true (word 0b0 0b0 0b0 0b01100 0b00000000) = .lcrRead := by decide
theorem test_decode_lcrWrite : decode platB true (word 0b1 0b0 0b0 0b01100 0b10000000) = .lcrWrite 0x80 := by decide
theorem test_decode_mcrRead : decode platB false (word 0b0 0b0 0b0 0b10000 0b00000000) = .mcrRead := by decide
theorem test_decode_mcrWrite : decode platB false (word 0b1 0b0 0b0 0b10000 0b00100000) = .mcrWrite 0x20 := by decide
theorem test_decode_lsrRead : decode platB true (word 0b0 0b0 0b0 0b10100 0b00000000) = .lsrRead := by decide
theorem test_decode_lsrWrite : decode platB false (word 0b1 0b0 0b0 0b10100 0b00000000) = .lsrWrite 0 := by decide
theorem test_decode_txcntLoRead : decode platB false (word 0b0 0b0 0b0 0b11000 0b00000000) = .txcntLoRead := by decide
theorem test_decode_txcntHiRead : decode platB true (word 0b0 0b0 0b0 0b11100 0b00000000) = .txcntHiRead := by decide
/-- Vectors E15 to E18. -/
theorem test_decode_reservedOffset :
    decode platA false (word 0b0 0b0 0b0 0b11000 0b00000000) = .reservedOffset false 24 0 ∧
    decode platB false (word 0b1 0b0 0b0 0b11000 0b00000000) = .reservedOffset true 24 0 ∧
    decode platB true (word 0b0 0b0 0b0 0b00001 0b00000000) = .reservedOffset false 1 0 ∧
    decode platB true (word 0b1 0b0 0b0 0b11111 0b01010101) = .reservedOffset true 31 0x55 := by decide
/-- Vectors E19 to E21: bit 13 set, bit 14 set as issued, a read with data. -/
theorem test_decode_badWord :
    decode platB true (word 0b0 0b0 0b1 0b00000 0b00000000) = .badWord 0x2000 ∧
    decode platB true (word 0b0 0b1 0b0 0b00000 0b00000000) = .badWord 0x4000 ∧
    decode platB false (word 0b0 0b0 0b0 0b10100 0b00000001) = .badWord 0x1401 := by decide
/-- The `match` column, numbered as the opcode table numbers it: bit 14 is `L`. -/
theorem test_decodeTableWord :
    decodeTableWord 16 0x4000 = some .dllRead ∧ decodeTableWord 16 0xC03E = some (.dllWrite 0x3E) ∧
    decodeTableWord 16 0x0000 = some .rbrRead ∧ decodeTableWord 16 0x4400 = some .dlhRead ∧
    decodeTableWord 16 0x5400 = some .lsrRead ∧ decodeTableWord 16 0x1C00 = some .txcntHiRead ∧
    decodeTableWord 16 0x2000 = some (.badWord 0x2000) := by decide
/-- A placed word is what the next step runs, in the bank its bit 14 asks for. -/
theorem test_withFetchWord :
    after (step (State.reset.withFetchWord 16 0xC03E)) (fun t => (t.dll, t.txq, t.program)) = some (0x3E, [], []) ∧
    after (step (State.reset.withFetchWord 16 0x803E)) (fun t => (t.dll, t.txq)) = some (0, [0x3E]) := by decide

/-! ## One operation (95_test_vectors.md 2.2) -/

/-- A1, A4. -/
theorem test_thrWrite_queues :
    after (exec (.thrWrite 0x41) (ready platA)) State.txq = some [0x41] ∧
    after (exec (.thrWrite 0x00) (ready platA)) State.txq = some [0x00] := by decide
/-- A2, A3. -/
theorem test_thrWrite_overruns :
    after (exec (.thrWrite 0x03) { ready { platA with txDepth := 2 } with txq := [0x01, 0x02] })
      (fun t => (t.txOverrun, t.txq)) = some (true, [0x01, 0x02]) ∧
    after (exec (.thrWrite 0x42) { ready platA with fifoEn := false, txq := [0x41] })
      (fun t => (t.txOverrun, t.txq)) = some (true, [0x41]) := by decide
/-- A5, A6. -/
theorem test_rbrRead_pops :
    after (exec .rbrRead { ready platA with rxq := [0x41, 0x42] }) (fun t => (t.reads, t.rxq)) = some ([0x41], [0x42]) ∧
    after (exec .rbrRead { ready platA with rxq := [0x00] }) (fun t => (t.reads, t.dr)) = some ([0x00], false) := by decide
/-- A7: no mark and no byte in the queue; one byte returned. -/
theorem test_rbrRead_empty :
    after (exec .rbrRead (ready platA)) (fun t => (t.rxq, t.noMark, t.reads.length)) = some ([], true, 1) := by decide
/-- A8. -/
theorem test_dllRead :
    after (issue 0x0000 { latched platA with dll := 0x10, rxq := [0x41] }) (fun t => (t.reads, t.rxq)) =
      some ([0x10], [0x41]) := by decide
/-- A9, W7. -/
theorem test_dllWrite :
    after (issue 0x803E { latched platA with dll := 0x10 }) (fun t => (t.dll, t.txq)) = some (0x3E, []) ∧
    after (exec (.dllWrite 0x3E) { latched platA with tsr := some ⟨0x41, true⟩ }) State.tsr = some (some ⟨0x41, true⟩) := by
  decide
/-- A10. -/
theorem test_ierWrite : after (exec (.ierWrite 0x00) { ready platA with ier := 0x0F }) State.ier = some 0x00 := by decide
theorem test_ierRead : after (exec .ierRead { ready platA with ier := 0x0F }) State.reads = some [0x0F] := by decide
/-- A11. -/
theorem test_dlhWrite :
    after (issue 0x8400 { latched platA with ier := 0x0F, dlh := 0x12 }) (fun t => (t.dlh, t.ier)) = some (0x00, 0x0F) := by
  decide
/-- V10: the high byte of 651 = 0x028B, vector I3. -/
theorem test_dlhRead : after (issue 0x0400 { latched platA with dlh := 0x02 }) State.reads = some [0x02] := by decide
/-- A12. -/
theorem test_fcrWrite_clears :
    after (exec (.fcrWrite 0xC7)
      { ready platA with txq := [0x41], rxq := [0x0A, 0x0B], tsr := some ⟨0x40, true⟩, fifoEn := false, fcr := 0 })
      (fun t => (t.fcr, t.fifoEn, t.txq, t.rxq, t.tsr)) = some (0xC7, true, [], [], some ⟨0x40, true⟩) := by decide
/-- A13. -/
theorem test_fcrWrite_refused :
    after (exec (.fcrWrite 0x01) { ready platA with txq := [0x41] }) (fun t => (t.refused, t.txq, t.fcr)) =
      some (some .refFcrValue, [0x41], 0xC7) := by decide
/-- A22. -/
theorem test_off8Read : after (exec .off8Read (ready platA)) (fun t => (t.refused, t.reads.length)) =
    some (some .refOff8Read, 1) := by decide
/-- A14, W5. -/
theorem test_lcrWrite :
    after (exec (.lcrWrite 0x80) { ready platA with tsr := some ⟨0x41, true⟩ }) (fun t => (t.lcr, t.latch, t.tsr)) =
      some (0x80, true, some ⟨0x41, false⟩) := by decide
/-- A15. -/
theorem test_lcrWrite_same :
    after (exec (.lcrWrite 0x03) { ready platA with tsr := some ⟨0x41, true⟩ }) State.tsr = some (some ⟨0x41, true⟩) := by decide
theorem test_lcrRead : after (exec .lcrRead (latched platA)) State.reads = some [0x83] := by decide
/-- A16. -/
theorem test_mcrWrite : after (exec (.mcrWrite 0x20) { ready platA with mcr := 0x00 }) State.mcr = some 0x20 := by decide
theorem test_mcrRead : after (exec .mcrRead (ready platA)) State.reads = some [0x20] := by decide
/-- A17 to A20: the byte for a given draw. -/
theorem test_lsrRead_value :
    lsrValue 0xFF (ready platA) = 0xFE ∧
    lsrValue 0x00 { ready platA with txq := [0x41], rxq := [0x0A] } = 0x01 ∧
    lsrValue 0xFF { ready platA with txq := [0x41] } = 0xDE ∧
    lsrValue 0x21 { ready platA with rxq := [0x0A] } = 0x21 := by decide
theorem test_lsrRead_no_effect :
    after (exec .lsrRead { ready platA with rxq := [0x0A] }) (fun t => (t.rxq, t.reads.length, t.noMark)) =
      some ([0x0A], 1, true) := by decide
/-- A21, A27. -/
theorem test_lsrWrite :
    after (exec (.lsrWrite 0) (ready platA)) State.refused = some (some .refLsrWrite) ∧
    after (exec (.lsrWrite 0) { ready platA with refused := some .refOffset }) State.refused = some (some .refOffset) := by
  decide
/-- A23 to A25. -/
theorem test_txcntLoRead :
    after (issue 0x1800 { ready platB with txq := [1, 2, 3] }) State.reads = some [0x0D] ∧
    after (issue 0x1800 { ready platB with fifoEn := false }) State.reads = some [0x01] := by decide
theorem test_txcntHiRead :
    after (issue 0x1C00 (ready { platB with txDepth := 300 })) State.reads = some [0x01] ∧
    after (issue 0x1800 (ready { platB with txDepth := 300 })) State.reads = some [0x2C] := by decide
/-- E16, E17. -/
theorem test_reservedOffset :
    after (issue 0x9800 (ready platB)) (fun t => (t.refused, t.reads)) = some (some .refOffset, []) ∧
    after (issue 0x0100 (ready platB)) (fun t => (t.refused, t.reads.length)) = some (some .refOffset, 1) := by decide
/-- E19. -/
theorem test_badWord : after (issue 0x2000 (ready platB)) State.refused = some (some .refWord) := by decide
/-- A26. -/
theorem test_memRead_wide :
    after (memRead 20 .word { ready platA with rxq := [0x41] }) (fun t => (t.refused, t.reads.length, t.rxq)) =
      some (some .refWidth, 4, [0x41]) := by decide

/-! ## The line agents (95_test_vectors.md 2.6) -/

/-- W1, W3. -/
theorem test_txLoad :
    after (moveStep .txLoad { ready platA with txq := [0x41, 0x42] }) (fun t => (t.txq, t.tsr)) =
      some ([0x42], some ⟨0x41, true⟩) ∧
    after (moveStep .txLoad { ready platA with txq := [0x42], tsr := some ⟨0x41, true⟩ }) State.txq = some [0x42] := by decide
/-- W2, and W4: not configured. -/
theorem test_txDone :
    after (moveStep .txDone { ready platA with tsr := some ⟨0x41, true⟩ }) (fun t => (t.txLine, t.tsr)) =
      some ([.byte 0x41], none) ∧
    after (moveStep .txDone { ready platA with tsr := some ⟨0x41, false⟩ }) State.txLine = some [.garbled] := by decide
/-- W4. -/
theorem test_txLoad_not_configured :
    after (moveStep .txLoad { ready platA with lcr := 0, txq := [0x41] }) State.tsr = some (some ⟨0x41, false⟩) := by decide
/-- W8, W9. -/
theorem test_rxArrive :
    after (moveStep (.rxArrive 0x41) (ready platA)) (fun t => (t.rxq, t.dr, t.rxLine)) = some ([0x41], true, [0x41]) ∧
    after (moveStep (.rxArrive 0x41) { ready platA with mcr := 0 }) (fun t => (t.rxq.length, t.rxLine)) = some (1, [0x41]) := by
  decide
/-- W10, W11. -/
theorem test_rxArrive_overruns :
    after (moveStep (.rxArrive 3) { ready { platA with rxDepth := 2 } with rxq := [1, 2] })
      (fun t => (t.rxOverrun, t.rxq, t.rxLine)) = some (true, [1, 2], [3]) ∧
    after (moveStep (.rxArrive 2) { ready platA with fifoEn := false, rxq := [1] }) State.rxOverrun = some true := by decide

/-! ## Composites (95_test_vectors.md 2.3 to 2.5) -/

/-- L7, L8: 8 free entries are ready, 7 are not (`TX_DEPTH` = 8 and 7 with an empty queue). -/
theorem test_countReady : countReady 0 8 = true ∧ countReady 0 7 = false ∧ countReady 1 0 = true := by decide
/-- L15: the raw probe takes the byte it reports. -/
theorem test_raw_probe_pops :
    after (moveStep .host { ready platPop with seq := .pollProbe, rxq := [0x41, 0x42] }) (fun t => (t.rxq, t.seq)) =
      some ([0x42], .pollRead) := by decide
/-- L14: a zero byte blocks the queue. -/
theorem test_raw_probe_zero :
    after (moveStep .host { ready platKeep with seq := .rxReady, rxq := [0x00, 0x41] }) (fun t => (t.rxq, t.results)) =
      some ([0x00, 0x41], [.rxReady false]) := by decide
/-- L17. -/
theorem test_raw_probe_latched :
    after (moveStep .host { latched platKeep with seq := .rxReady }) State.results = some [.rxReady true] := by decide
/-- T4: with the latch set the character goes to DLL. -/
theorem test_sendWrite_latched :
    after (moveStep .host { latched platA with seq := .sendWrite 0x41 }) (fun t => (t.dll, t.txq, t.noMark)) =
      some (0x41, [], true) := by decide
/-- T6, T7. -/
theorem test_pollRead :
    after (moveStep .host { ready platA with seq := .pollRead, rxq := [0x41] }) State.results = some [.polled (some 0x41)] ∧
    after (moveStep .host { ready platA with seq := .pollRead, rxq := [0x00] }) State.results = some [.polled (some 0x00)] := by
  decide
/-- I1 to I4 and I7. -/
theorem test_divisor_performed :
    divisorOperand 115000000 115200 = some 62 ∧ divisorOperand 50000000 115200 = some 27 ∧
    divisorOperand 100000000 9600 = some 651 ∧ divisorOperand 1843200 115200 = some 1 ∧
    divisorOperand 1048560 1 = some 65535 := by decide
/-- I5, I6, I8, I9. -/
theorem test_divisor_refused :
    divisorOperand 1843199 115200 = none ∧ divisorOperand 5 0 = none ∧ divisorOperand 1048576 1 = none ∧
    divisorOperand 100000000 50 = none := by decide
/-- V10 and I3: the split. -/
theorem test_divisor_split :
    (divisorLowByte 62, divisorHighByte 62) = (0x3E, 0x00) ∧ (divisorLowByte 651, divisorHighByte 651) = (0x8B, 0x02) := by decide
/-- P1: the words of the seven steps, for divisor 62. -/
theorem test_initWords :
    [InitStep.disableInterrupts, .setLatch, .divisorLow, .divisorHigh, .clearLatch, .fifoInit, .autoflow].map (initWord platA 62) =
      [0x8400, 0x8C80, 0x803E, 0x8400, 0x8C03, 0x88C7, 0x9020] := by decide

end Sys2Proof.Tests
end

