-- ==== Sys2Proof/Tests/Witnesses.lean ====
section
/-! SUPPORT. For every statement with hypotheses, a concrete state and operands that meet them together, one per clause, at a
boundary of its range. Each theorem is named after the statement it serves. -/

namespace Sys2Proof.Tests

open Sys2Proof.Machine

/-! ## Decoding -/

theorem witness_StepRunsDecodedOperation :
    let s : State := { ready platA with program := [.transaction 0x8041, .pollChar], schedule := [.host, .txLoad] }
    s.nextMove = .host ∧ s.seq = .idle ∧ s.program = .transaction 0x8041 :: [.pollChar] := by decide

/-- The empty schedule is the other way for the host to be next. -/
theorem witness_StepRunsDecodedOperation_empty_schedule :
    let s : State := { ready platA with program := [.transaction 0x2000] }
    s.nextMove = .host ∧ s.seq = .idle ∧ s.program = .transaction 0x2000 :: [] := by decide

theorem witness_DecodeOfEncodeIsTheInstruction :
    platB.wf = true ∧ Instr.wf platB (.reservedOffset true 31 0xFF) = true ∧
      Instr.inBank true (.reservedOffset true 31 0xFF) = true ∧ Instr.wf platB .txcntHiRead = true ∧
      Instr.inBank false .txcntHiRead = true := by decide

theorem witness_EncodeOfDecodeIsTheWord : platA.wf = true ∧ platB.wf = true := by decide

/-- Both banked offsets, in both banks. -/
theorem witness_BankSelectsTheRegister :
    TWord.isTransaction 0x80FF = true ∧ TWord.offset 0x80FF = 0 ∧ TWord.isTransaction 0x0400 = true ∧
      TWord.offset 0x0400 = 4 ∧ (ready platA).latch = false ∧ (latched platA).latch = true := by decide

/-- The unmapped neighbours 1, 3 and 5 of the banked offsets, and the last offset. -/
theorem witness_LatchMattersOnlyAtOffsetsZeroAndFour :
    [0x0100, 0x8300, 0x0500, 0x9F00].all (fun t : TWord => t.offset != 0 && t.offset != 4) = true := by decide

/-! ## Operations -/

theorem witness_RbrReadResult :
    ({ ready platA with rxq := [0x41] } : State).rxq = 0x41 :: [] ∧ (ready platA).rxq = [] ∧ (ready platPop).rxq = [] ∧
      (ready platA).platform.rxEmptyValue = none ∧ (ready platPop).platform.rxEmptyValue = some 0 := by decide

/-- One free entry, and none: FIFO on at depth 2, and FIFO off. -/
theorem witness_ThrWriteResult :
    let p := { platA with txDepth := 2 }
    let one : State := { ready p with txq := [1] }
    let full : State := { ready p with txq := [1, 2] }
    let off : State := { ready p with fifoEn := false }
    one.txq.length < one.capTx ∧ full.capTx ≤ full.txq.length ∧ off.txq.length < off.capTx := by decide

theorem witness_FcrWriteResult :
    0xC7#8 = (ready platA).platform.fcrInit ∧ 0xC6#8 ≠ (ready platA).platform.fcrInit := by decide

theorem witness_LsrReadResult : (1 ≠ 0 ∧ 1 ≠ 5) ∧ (7 ≠ 0 ∧ 7 ≠ 5) := by decide

/-- The greatest free space the count can show. -/
theorem witness_TxcntReads :
    let s := ready { platB with txDepth := 65535 }
    s.capTx - s.txq.length = 65535 ∧ s.capTx - s.txq.length < 65536 := by decide

theorem witness_WritesAreInForceAtOnce :
    let s : State := { ready platA with fifoEn := false }
    s.txq.length < s.capTx := by decide

/-- The access that ends with the window's first byte, and the one that begins with its last. -/
theorem witness_RawAccessesInTheWindow :
    let s := ready { platA with uartBase := 0x1000 }
    (Width.half ≠ .byte ∧ s.platform.uartBase < 0xFFF + Width.half.bytes ∧ 0xFFF < s.platform.uartBase + 32) ∧
      (Width.double ≠ .byte ∧ s.platform.uartBase < 0x101F + Width.double.bytes ∧ 0x101F < s.platform.uartBase + 32) ∧
      (Width.word ≠ .byte ∧ s.platform.uartBase < 0x1014 + Width.word.bytes ∧ 0x1014 < s.platform.uartBase + 32) := by
  decide

/-- Accesses that end just below the window and begin just above it, and states where the access is in the window, the move is
another agent's, or the host is inside a composite. -/
theorem witness_StepStopsOnlyOutsideTheBlock :
    IssuesAccessOutside { ready { platA with uartBase := 4 } with program := [.memRead 0 .word] } ∧
      IssuesAccessOutside { ready platA with program := [.memWrite 32 .byte 0] } ∧
      ¬ IssuesAccessOutside { ready platA with program := [.memRead 31 .byte] } ∧
      ¬ IssuesAccessOutside { ready platA with program := [.memRead 32 .byte], schedule := [.txLoad] } ∧
      ¬ IssuesAccessOutside { ready platA with program := [.memRead 32 .byte], seq := .pollProbe } := by
  refine ⟨⟨rfl, rfl, 0, .word, [], .inl (by decide), .inl rfl⟩, ⟨rfl, rfl, 32, .byte, [], .inr (by decide), .inr ⟨0, rfl⟩⟩,
    ?_, fun h => Move.noConfusion h.1, fun h => SeqState.noConfusion h.2.1⟩
  rintro ⟨-, -, addr, n, rest, h, e | ⟨v, e⟩⟩
  · obtain ⟨⟨rfl, rfl⟩, -⟩ : (31 = addr ∧ Width.byte = n) ∧ [] = rest := by simpa using e
    revert h; simp [AccessOutside, Width.bytes, platA, Platform.reference, ready]
  · simp at e

/-- The stop at both edges. -/
theorem test_access_outside_stops :
    step { ready { platA with uartBase := 4 } with program := [.memRead 0 .word] } = .fault .outsideBlock ∧
      step { ready platA with program := [.memWrite 32 .byte 0] } = .fault .outsideBlock := ⟨rfl, rfl⟩

theorem witness_OperationsChangeOnlyWhatTheyName :
    (∃ t, exec .rbrRead { ready platA with rxq := [1] } = .next t) ∧
      (∃ t, exec (.lcrWrite 0x80) { ready platA with tsr := some ⟨1, true⟩ } = .next t) ∧
      (∃ t, exec (.thrWrite 5) (ready platA) = .next t) ∧
      (∃ t, exec (.reservedOffset true 24 0) (ready platA) = .next t) ∧
      ((.thrWrite 5 : Instr) ∉ [.rbrRead, .dllRead, .ierRead, .dlhRead, .off8Read, .lcrRead, .mcrRead, .lsrRead, .txcntLoRead,
        .txcntHiRead]) ∧ ((.dllRead : Instr) ∉ [.rbrRead, .off8Read, .lsrRead]) ∧
      ∀ off d, (.reservedOffset true 24 0 : Instr) ≠ .reservedOffset false off d :=
  ⟨⟨_, rfl⟩, ⟨_, rfl⟩, ⟨_, rfl⟩, ⟨_, rfl⟩, by decide, by decide, fun _ _ h => by simp at h⟩

/-- A newly set refusal, and an overrun. -/
theorem witness_OneOperationRaisesAtMostOneMark :
    (∃ t, exec .off8Read (ready platA) = .next t ∧ t.refused ≠ (ready platA).refused) ∧
      ∃ t, exec (.thrWrite 2) { ready platA with fifoEn := false, txq := [1] } = .next t ∧ t.txOverrun = true :=
  ⟨⟨_, rfl, by decide⟩, ⟨_, rfl, rfl⟩⟩

/-- All three marks set before a host step and before an arrival. -/
theorem witness_MarksStickAndTracesGrow :
    let s : State := { ready platA with txOverrun := true, rxOverrun := true, refused := some .refWord,
                                        program := [.transaction 0x88C7] }
    (∃ t, step s = .next t) ∧ (∃ t, step { s with schedule := [.rxArrive 7] } = .next t) ∧ s.txOverrun = true ∧
      s.rxOverrun = true ∧ s.refused = some .refWord :=
  ⟨⟨_, rfl⟩, ⟨_, rfl⟩, rfl, rfl, rfl⟩

/-! ## Reset and the invariant -/

theorem witness_ResetMeetsTheInvariant :
    let p := { platB with txDepth := 65535, rxDepth := 1 }
    p.wf = true ∧ p.txDepth < 65536 := by decide

/-- The invariant at the positions that carry facts, with a full queue among them. -/
theorem witness_Consistent_sendWrite : Consistent { ready platA with seq := .sendWrite 0x41 } :=
  ⟨by decide, by decide, ⟨by decide, by decide⟩, rfl⟩

theorem witness_Consistent_sendWrite_count :
    Consistent { ready { platB with txDepth := 9 } with seq := .sendWrite 0x41, txq := [1] } :=
  ⟨by decide, by decide, ⟨by decide, by decide⟩, by simp only [SeqFacts, RoomForWrite, platB, ready, Platform.reference]; decide⟩

theorem witness_Consistent_sendWaitHi :
    Consistent { ready platB with seq := .sendWaitHi 0x41 15, txq := [] } :=
  ⟨by decide, by decide, ⟨by decide, by decide⟩, ⟨15, by decide, by decide, by decide⟩⟩

theorem witness_Consistent_pollRead : Consistent { ready platA with seq := .pollRead, rxq := [0x00] } :=
  ⟨by decide, by decide, ⟨by decide, by decide⟩, fun _ => by decide⟩

theorem witness_Consistent_full : Consistent { ready { platA with txDepth := 1, rxDepth := 1 } with txq := [1], rxq := [2] } :=
  ⟨by decide, by decide, ⟨by decide, by decide⟩, trivial⟩

theorem witness_Consistent_divisorLow :
    Consistent { ready platA with lcr := 0x80, seq := .init .divisorLow 0xFFFF } :=
  ⟨by decide, by decide, ⟨by decide, by decide⟩, by decide, rfl⟩

theorem witness_Consistent_divisorHigh :
    Consistent { ready platA with lcr := 0x80, dll := 0x01, seq := .init .divisorHigh 0x0001 } :=
  ⟨by decide, by decide, ⟨by decide, by decide⟩, by decide, rfl, by decide⟩

theorem witness_Consistent_autoflow :
    Consistent { ready platA with mcr := 0, seq := .init .autoflow 62 } :=
  ⟨by decide, by decide, ⟨by decide, by decide⟩, by decide, rfl, by decide, by decide, rfl, rfl, rfl⟩

theorem witness_EveryMoveKeepsTheInvariant :
    (∃ t, moveStep .host { ready platA with seq := .sendWrite 0x41 } = .next t) ∧
      (∃ t, moveStep .txLoad { ready platB with seq := .sendWaitHi 0x41 15, txq := [] } = .next t) ∧
      ∃ t, step { ready platA with mcr := 0, seq := .init .autoflow 62 } = .next t :=
  ⟨⟨_, rfl⟩, ⟨_, rfl⟩, ⟨_, rfl⟩⟩

/-! ## The line side -/

theorem witness_TransmitterSteps :
    (({ ready platA with txq := [0x41] } : State).txq = 0x41 :: [] ∧ (ready platA).tsr = none) ∧
      (ready platA).txq = [] ∧ ({ ready platA with tsr := some ⟨1, true⟩ } : State).tsr ≠ none ∧
      ({ ready platA with tsr := some ⟨1, false⟩ } : State).tsr = some { b := 1, ok := false } := by decide

/-- The last free entry while configured and while not, and a full queue. -/
theorem witness_ReceiverStep :
    let p := { platA with rxDepth := 2 }
    let last : State := { ready p with rxq := [1] }
    let off : State := { last with mcr := 0 }
    let full : State := { ready p with rxq := [1, 2] }
    (last.configured = true ∧ last.rxq.length < last.capRx) ∧ (off.configured = false ∧ off.rxq.length < off.capRx) ∧
      full.capRx ≤ full.rxq.length := by decide

theorem witness_LineAgentsReachNoRegister :
    (Move.txLoad ≠ .host ∧ ∃ t, moveStep .txLoad { ready platA with txq := [1] } = .next t) ∧
      (Move.txDone ≠ .host ∧ ∃ t, moveStep .txDone { ready platA with tsr := some ⟨1, true⟩ } = .next t) ∧
      (Move.rxArrive 0 ≠ .host ∧ ∃ t, moveStep (.rxArrive 0) (ready platA) = .next t) :=
  ⟨⟨nofun, _, rfl⟩, ⟨nofun, _, rfl⟩, ⟨nofun, _, rfl⟩⟩

/-- One byte in flight and each of the six writes before its completion. -/
theorem witness_ReconfigurationGarblesTheByteInFlight :
    let s : State := { latched platA with tsr := some ⟨0x41, true⟩ }
    s.tsr = some { b := 0x41, ok := true } ∧
      [Instr.lcrWrite 0x03, .mcrWrite 0, .dllWrite 0, .dlhWrite 1, .ierWrite 1, .fcrWrite 0xC7].all
        (fun i => (after (exec i s) (fun t => (after (moveStep .txDone t) State.txLine).isSome)).getD false) = true := by
  decide

/-- Each way the outgoing stream can move: a byte added, a symbol garbled, a FIFO clear. -/
theorem witness_TransmitStreamKeepsItsOrder :
    (∃ t, step { ready platA with program := [.transaction 0x8041] } = .next t ∧ t.txq = [0x41]) ∧
      (∃ t, step { ready platA with program := [.transaction 0x8C80], tsr := some ⟨1, true⟩ } = .next t ∧
        t.tsr = some ⟨1, false⟩) ∧
      ∃ t, step { ready platA with program := [.transaction 0x88C7], txq := [1] } = .next t ∧ t.txq = [] :=
  ⟨⟨_, rfl, by decide⟩, ⟨_, rfl, by decide⟩, ⟨_, rfl, by decide⟩⟩

/-- Each way the incoming queue can move. -/
theorem witness_ReceiveQueueKeepsItsOrder :
    (∃ t, step { ready platA with schedule := [.rxArrive 9] } = .next t ∧ t.rxq = [9]) ∧
      (∃ t, step { ready platA with program := [.transaction 0x0000], rxq := [1, 2] } = .next t ∧ t.rxq = [2]) ∧
      ∃ t, step { ready platA with program := [.transaction 0x88C7], rxq := [1] } = .next t ∧ t.rxq = [] :=
  ⟨⟨_, rfl, by decide⟩, ⟨_, rfl, by decide⟩, ⟨_, rfl, by decide⟩⟩

/-- An arrival into the last free entry, and a host move beside a full queue (W12). -/
theorem witness_PeerHonouringRtsPreventsOverrun :
    let p := { platA with rxDepth := 2 }
    let last : State := { ready p with rxq := [1], schedule := [.rxArrive 2] }
    let full : State := { ready p with rxq := [1, 2] }
    (peerHonoursRts last.nextMove last = true ∧ ∃ t, step last = .next t) ∧
      (peerHonoursRts full.nextMove full = true ∧ ∃ t, step full = .next t) ∧
      peerHonoursRts (.rxArrive 3) full = false :=
  ⟨⟨by decide, _, rfl⟩, ⟨by decide, _, rfl⟩, by decide⟩

/-! ## Composites -/

theorem witness_SequencerTransitions :
    (({ ready platA with program := [.sendChar 1] } : State).seq = .idle ∧ (ready platA).platform.probeTx = .thre) ∧
      (platB.wf = true ∧ (ready platB).platform.probeTx = .count8 24 28) ∧ (ready platA).platform.probeRx = .dr ∧
      (ready platPop).platform.probeRx = .nonzero true (some 0) ∧
      ({ ready platB with seq := .sendWaitHi 1 255 } : State).seq = .sendWaitHi 1 255 ∧
      ({ ready platB with program := [.txReady] } : State).program = .txReady :: [] ∧
      ({ ready platB with program := [.rxReady] } : State).program = .rxReady :: [] := by decide

/-- The start of a probe by itself, on each platform, with the free space at the top of 16 bits. -/
theorem witness_StatusBitProbes :
    (({ ready platA with seq := .txReady } : State).platform.probeTx = .thre) ∧
      ({ ready platA with seq := .rxReady } : State).platform.probeRx = .dr := by decide

theorem witness_ReadyCountProbe :
    let p := { platB with txDepth := 65535 }
    p.wf = true ∧ p.probeTx = .count8 24 28 ∧ (ready p).txFree < 65536 ∧
      ({ ready p with seq := .txReadyHi 0xFF } : State).seq = .txReadyHi 0xFF := by decide

/-- Exactly 8 entries free, all conditions and the true result (L7). -/
theorem witness_ReadyCountResultIsSound :
    let s : State := { ready { platB with txDepth := 8 } with seq := .txReadyHi 8 }
    Consistent s ∧ s.platform.probeTx = .count8 24 28 ∧
      ∃ t, moveStep .host s = .next t ∧ t.results = s.results ++ [.txReady true] :=
  ⟨⟨by decide, by decide, ⟨by decide, by decide⟩, ⟨8, by decide, by decide, by decide⟩⟩, by decide, _, rfl, by decide⟩

/-- Seven entries (L10), at both waiting positions. -/
theorem witness_ReadyCountNeverReadyBelowEight :
    let p := { platB with txDepth := 7 }
    p.wf = true ∧ p.probeTx = .count8 24 28 ∧ (ready p).capTx < 8 ∧
      (∃ t, moveStep .host { ready p with seq := .sendWait 1 } = .next t) ∧
      ∃ t, moveStep .host { ready p with seq := .sendWaitHi 1 7 } = .next t :=
  ⟨by decide, by decide, by decide, ⟨_, rfl⟩, ⟨_, rfl⟩⟩

theorem witness_RawValueProbe :
    (ready platPop).platform.probeRx = .nonzero true (some 0) ∧ (ready platPop).latch = false ∧
      (latched platKeep).platform.probeRx = .nonzero false (some 0) ∧ (latched platKeep).latch = true := by decide

/-- A nonzero byte, a zero byte, and an empty queue. -/
theorem witness_RawValuePollLimits :
    (ready platPop).latch = false ∧ (ready platPop).platform.probeRx = .nonzero true (some 0) ∧
      ({ ready platPop with rxq := [1], seq := .pollProbe } : State).rxq = 1 :: [] ∧ (1#8 : Byte) ≠ 0 ∧
      ({ ready platKeep with rxq := [0, 1], seq := .pollProbe } : State).rxq = 0 :: [1] ∧ (ready platPop).rxq = [] := by
  decide

/-- Status-bit platform: witness_Consistent_sendWrite; ready-count platform: the last eight entries. -/
theorem witness_SendCharNeverOverruns :
    let s : State := { ready { platB with txDepth := 8 } with seq := .sendWrite 0 }
    Consistent s ∧ s.seq = .sendWrite 0 ∧ s.latch = false :=
  ⟨⟨by decide, by decide, ⟨by decide, by decide⟩, by simp only [SeqFacts, RoomForWrite, platB, ready, Platform.reference]; decide⟩,
    rfl, by decide⟩

theorem witness_PollCharReturnsTheOldestByte :
    let s : State := { ready platA with seq := .pollRead, rxq := [0x00] }
    Consistent s ∧ s.platform.probeRx = .dr ∧ s.seq = .pollRead ∧ s.latch = false :=
  ⟨witness_Consistent_pollRead, by decide, rfl, by decide⟩

theorem witness_LatchSetTurnsCharactersIntoDivisor :
    (({ latched platA with seq := .sendWrite 0x3E } : State).latch = true) ∧
      ({ latched platA with seq := .pollRead } : State).latch = true := by decide

/-! ## A fair execution -/

/-- A waiting `SEND_CHAR` with an empty queue. -/
def fair0 : State := { ready platA with seq := .sendWait 0x41 }
/-- After the probe. -/
def fair1 : State := { fair0 with seq := .sendWrite 0x41, reads := [lsrValue (Config.freeByte 0) fair0], draws := 1 }
/-- After the write. -/
def fair2 : State := { fair1 with seq := .idle, txq := [0x41] }
/-- After `TX_LOAD`. -/
def fair3 : State := { fair2 with txq := [], tsr := some ⟨0x41, true⟩ }
/-- After `TX_DONE`. -/
def fair4 : State := { fair3 with tsr := none, txLine := [.byte 0x41] }

/-- The states of the execution. -/
def fairStates : Nat → State
  | 0 => fair0
  | 1 => fair1
  | 2 => fair2
  | 3 => fair3
  | _ + 4 => fair4

/-- Its moves: host, host, transmitter twice, and then the three agents in turn for ever. -/
def fairMoves : Nat → Move
  | 0 => .host
  | 1 => .host
  | 2 => .txLoad
  | 3 => .txDone
  | n + 4 => if n % 3 = 0 then .host else if n % 3 = 1 then .txLoad else .txDone

theorem fair_execution : Execution fairMoves fairStates := by
  intro n
  match n with
  | 0 =>
    show hostStep fair0 = .next fair1
    rw [hostStep_sendWait (show fair0.seq = .sendWait 0x41 from rfl)]
    have h : fair0.platform.probeTx = .thre := rfl
    simp only [txProbe, h, busRead_lsr, execLsrRead, andThen_next, lastRead_countDraw, lastRead_returnByte, threBit_lsrValue]
    rfl
  | 1 => show hostStep fair1 = .next fair2; rfl
  | 2 => rfl
  | 3 => rfl
  | n + 4 =>
    have h : ∀ m, m = .host ∨ m = .txLoad ∨ m = .txDone → moveStep m fair4 = .next fair4 := by
      rintro m (rfl | rfl | rfl) <;> rfl
    refine h _ ?_
    simp only [fairMoves]
    split
    · exact .inl rfl
    · split
      · exact .inr (.inl rfl)
      · exact .inr (.inr rfl)

theorem witness_SendCharEndsUnderFairness :
    Execution fairMoves fairStates ∧ HostMoves fairMoves ∧ TxFair fairMoves fairStates ∧ Consistent (fairStates 0) ∧
      (fairStates 0).seq = .sendWait 0x41 ∧ (fairStates 0).platform.probeTx = .thre := by
  refine ⟨fair_execution, fun n => ⟨n * 3 + 4, by omega, by simp [fairMoves]⟩,
    ⟨fun n _ => ⟨n * 3 + 1 + 4, by omega, by simp [fairMoves, Nat.add_mod]⟩,
      fun n _ => ⟨n * 3 + 2 + 4, by omega, by simp [fairMoves, Nat.add_mod]⟩⟩,
    ⟨by decide, by decide, ⟨by decide, by decide⟩, trivial⟩, rfl, rfl⟩

/-- The other platform's condition, at the least depth. -/
theorem witness_SendCharEndsUnderFairness_count :
    let s := ready { platB with txDepth := 8 }
    s.fifoEn = true ∧ 8 ≤ s.platform.txDepth := by decide

/-! ## Initialisation, the interrupt output and the end -/

/-- The least and the greatest divisor, and the quotients just outside (I4, I5, I6, I7, I8). -/
theorem witness_InitDivisorOperand :
    (115200 ≠ 0 ∧ 1 ≤ 1843200 / (115200 * 16) ∧ 1843200 / (115200 * 16) ≤ 65535) ∧
      (1 ≠ 0 ∧ 1 ≤ 1048560 / (1 * 16) ∧ 1048560 / (1 * 16) ≤ 65535) ∧ 1843199 / (115200 * 16) = 0 ∧
      65535 < 1048576 / (1 * 16) ∧
      ({ ready platA with program := [.uartInit 5 0] } : State).program = .uartInit 5 0 :: [] := by decide

theorem witness_DivisorSplit :
    Consistent { ready platA with lcr := 0x80, seq := .init .divisorLow 0xFFFF } ∧
      Consistent { ready platA with lcr := 0x80, dll := 0x01, seq := .init .divisorHigh 0x0001 } :=
  ⟨witness_Consistent_divisorLow, witness_Consistent_divisorHigh⟩

theorem witness_InitStepsInOrder :
    ({ ready platA with seq := .init .disableInterrupts 62 } : State).seq = .init .disableInterrupts 62 ∧
      ({ ready platA with seq := .init .autoflow 62 } : State).seq = .init .autoflow 62 := by decide

/-- Eight host moves with line moves among them, latch set and clear on entry. -/
theorem witness_InitLeavesTheBlockConfigured :
    let moves : List Move := [.host, .txLoad, .host, .host, .rxArrive 1, .host, .host, .txDone, .host, .host, .host, .rxArrive 2]
    let s : State := { latched platA with program := [.uartInit 1048560 1], txq := [5] }
    let u : State := { ready platA with program := [.uartInit 1843200 115200] }
    (s.seq = .idle ∧ s.program = .uartInit 1048560 1 :: [] ∧ divisorOperand 1048560 1 = some 65535 ∧
      moves.count .host = 8 ∧ s.latch = true) ∧
      u.seq = .idle ∧ u.program = .uartInit 1843200 115200 :: [] ∧ divisorOperand 1843200 115200 = some 1 ∧ u.latch = false := by
  decide

theorem witness_InterruptOutputInactiveWhileIerZero :
    (ready platA).ier = 0x00 ∧ ({ ready platA with ier := 0x80 } : State).ier ≠ 0x00 := by decide

theorem witness_EndedRunStaysEnded :
    (ready platA).runEnded = true ∧ ({ ready platA with rxq := [1], refused := some .refWidth } : State).runEnded = true := by
  decide

end Sys2Proof.Tests
end

section
/-! SUPPORT. The statements of 40_register_access.md about the banked offsets 0 and 4, and the lemmas they stand on: what a
word of either offset decodes to in each bank, and that an operation of one bank commutes with any change of the other
bank's registers. -/

namespace Sys2Proof

/-! ## The words of the banked offsets -/

/-- A read of offset 0 selects DLL or RBR, as the latch says. -/
theorem decode_readWord_zero (p : Platform) (l : Bool) :
    decode p l (readWord 0) = if l then .dllRead else .rbrRead := by
  cases l <;> simp [readWord, decode_make, fixedRows]

/-- A write of offset 0 selects DLL or THR, as the latch says. -/
theorem decode_writeWord_zero (p : Platform) (l : Bool) (d : Byte) :
    decode p l (writeWord 0 d) = if l then .dllWrite d else .thrWrite d := by
  cases l <;> simp [writeWord, decode_make, fixedRows]

/-- A read of offset 4 selects DLH or IER, as the latch says. -/
theorem decode_readWord_four (p : Platform) (l : Bool) :
    decode p l (readWord 4) = if l then .dlhRead else .ierRead := by
  cases l <;> simp [readWord, decode_make, fixedRows]

/-- A write of offset 4 selects DLH or IER, as the latch says. -/
theorem decode_writeWord_four (p : Platform) (l : Bool) (d : Byte) :
    decode p l (writeWord 4 d) = if l then .dlhWrite d else .ierWrite d := by
  cases l <;> simp [writeWord, decode_make, fixedRows]

/-- A transaction is a read word or a write word of its offset. -/
theorem eq_readWord_or_writeWord_of_isTransaction (t : TWord) (h : t.isTransaction = true) :
    t = readWord t.offset ∨ ∃ d, t = writeWord t.offset d := by
  obtain ⟨w, o, d, rfl, hd⟩ := exists_make_of_isTransaction t h
  rw [offset_make]
  cases w with
  | true => exact .inr ⟨d, rfl⟩
  | false =>
    have hd0 : d = 0 := by simpa using hd
    exact .inl (by rw [hd0]; rfl)

/-- A transaction at offset 0 or 4 decodes to an operation of the bank the latch selects (40_register_access.md R98). -/
theorem bank_decode_of_banked_offset (p : Platform) (l : Bool) (t : TWord) (h : t.isTransaction = true)
    (ho : t.offset = 0 ∨ t.offset = 4) : (decode p l t).bank = some l := by
  obtain ht | ⟨d, ht⟩ := eq_readWord_or_writeWord_of_isTransaction t h <;> obtain ho | ho := ho <;> rw [ht, ho]
  · rw [decode_readWord_zero]; cases l <;> rfl
  · rw [decode_readWord_four]; cases l <;> rfl
  · rw [decode_writeWord_zero]; cases l <;> rfl
  · rw [decode_writeWord_four]; cases l <;> rfl

/-- The operations of the bank reached with the latch clear. -/
theorem Instr.eq_of_bank_eq_some_false {i : Instr} (h : i.bank = some false) :
    i = .rbrRead ∨ (∃ d, i = .thrWrite d) ∨ i = .ierRead ∨ ∃ d, i = .ierWrite d := by
  cases i <;> simp [Instr.bank] at h ⊢

/-- The operations of the bank reached with the latch set. -/
theorem Instr.eq_of_bank_eq_some_true {i : Instr} (h : i.bank = some true) :
    i = .dllRead ∨ (∃ d, i = .dllWrite d) ∨ i = .dlhRead ∨ ∃ d, i = .dlhWrite d := by
  cases i <;> simp [Instr.bank] at h ⊢

end Sys2Proof

namespace Sys2Proof.Machine

/-! ## One bank's operations beside the other bank's registers -/

/-- With DLL and DLH at other values. -/
def State.withDivisorBytes (dll dlh : Byte) (s : State) : State := { s with dll := dll, dlh := dlh }

@[simp] theorem withDivisorBytes_platform (dll dlh : Byte) (s : State) :
    (s.withDivisorBytes dll dlh).platform = s.platform := rfl
@[simp] theorem withDivisorBytes_rxq (dll dlh : Byte) (s : State) : (s.withDivisorBytes dll dlh).rxq = s.rxq := rfl

/-- With IER and the two queues behind THR and RBR at other values. -/
def State.withDataBank (ier : Byte) (txq rxq : List Byte) (s : State) : State :=
  { s with ier := ier, txq := txq, rxq := rxq }

/-- An operation of the data bank does the same whatever the divisor bytes hold, and carries them along. -/
theorem exec_withDivisorBytes {i : Instr} (h : i.bank = some false) (dll dlh : Byte) (s : State) :
    exec i (s.withDivisorBytes dll dlh) = andThen (exec i s) (State.withDivisorBytes dll dlh) := by
  obtain rfl | ⟨d, rfl⟩ | rfl | ⟨d, rfl⟩ := Instr.eq_of_bank_eq_some_false h
  case inl =>
    show execRbrRead (s.withDivisorBytes dll dlh) = andThen (execRbrRead s) _
    obtain ⟨v, rest, hq, e⟩ | ⟨hq, hv, e⟩ | ⟨v, hq, hv, e⟩ := execRbrRead_cases s <;> rw [e]
    · simp only [execRbrRead, withDivisorBytes_rxq, hq]; rfl
    · simp only [execRbrRead, withDivisorBytes_rxq, withDivisorBytes_platform, hq, hv]; rfl
    · simp only [execRbrRead, withDivisorBytes_rxq, withDivisorBytes_platform, hq, hv]; rfl
  case inr.inl =>
    show execThrWrite d (s.withDivisorBytes dll dlh) = andThen (execThrWrite d s) _
    obtain ⟨hlt, e⟩ | ⟨hle, e⟩ := execThrWrite_cases d s <;> rw [e]
    · exact if_pos hlt
    · exact if_neg (Nat.not_lt.mpr hle)
  case inr.inr.inl => rfl
  case inr.inr.inr => rfl

/-- An operation of the divisor bank does the same whatever IER and the queues hold, and carries them along. -/
theorem exec_withDataBank {i : Instr} (h : i.bank = some true) (ier : Byte) (txq rxq : List Byte) (s : State) :
    exec i (s.withDataBank ier txq rxq) = andThen (exec i s) (State.withDataBank ier txq rxq) := by
  obtain rfl | ⟨d, rfl⟩ | rfl | ⟨d, rfl⟩ := Instr.eq_of_bank_eq_some_true h
  case inl => rfl
  case inr.inl => simp only [exec, execDllWrite, damageIfChanged_eq]; rfl
  case inr.inr.inl => rfl
  case inr.inr.inr => simp only [exec, execDlhWrite, damageIfChanged_eq]; rfl

/-- Every operation of a bank completes. -/
theorem exec_completes_of_bank {i : Instr} {l : Bool} (h : i.bank = some l) (s : State) : ∃ r, exec i s = .next r := by
  cases l with
  | false =>
    obtain rfl | ⟨d, rfl⟩ | rfl | ⟨d, rfl⟩ := Instr.eq_of_bank_eq_some_false h
    · obtain ⟨v, rest, -, e⟩ | ⟨-, -, e⟩ | ⟨v, -, -, e⟩ := execRbrRead_cases s <;> exact ⟨_, e⟩
    · obtain ⟨-, e⟩ | ⟨-, e⟩ := execThrWrite_cases d s <;> exact ⟨_, e⟩
    · exact ⟨_, rfl⟩
    · exact ⟨_, rfl⟩
  | true => obtain rfl | ⟨d, rfl⟩ | rfl | ⟨d, rfl⟩ := Instr.eq_of_bank_eq_some_true h <;> exact ⟨_, rfl⟩

/-- With the latch clear, a transaction at a banked offset neither reads nor changes the divisor bytes. -/
theorem issue_of_latch_clear {s : State} {t : TWord} (ht : t.isTransaction = true) (ho : t.offset = 0 ∨ t.offset = 4)
    (hl : s.latch = false) : ∃ r, issue t s = .next r ∧ r.dll = s.dll ∧ r.dlh = s.dlh ∧
      ∀ dll dlh, issue t (s.withDivisorBytes dll dlh) = .next (r.withDivisorBytes dll dlh) := by
  have hb : (decode s.platform s.latch t).bank = some false := hl ▸ bank_decode_of_banked_offset _ _ t ht ho
  obtain ⟨r, hr⟩ := exec_completes_of_bank hb s
  have hcomm (dll dlh : Byte) : issue t (s.withDivisorBytes dll dlh) = .next (r.withDivisorBytes dll dlh) :=
    (exec_withDivisorBytes hb dll dlh s).trans (by rw [hr, andThen_next])
  -- at the values they hold, setting the divisor bytes changes nothing before the operation, so nothing after it
  have hkeep : r = r.withDivisorBytes s.dll s.dlh := Host.Outcome.next.inj (hr.symm.trans (hcomm s.dll s.dlh))
  exact ⟨r, hr, (congrArg State.dll hkeep :), (congrArg State.dlh hkeep :), hcomm⟩

/-- With the latch set, a transaction at a banked offset neither reads nor changes IER and the queues. -/
theorem issue_of_latch_set {s : State} {t : TWord} (ht : t.isTransaction = true) (ho : t.offset = 0 ∨ t.offset = 4)
    (hl : s.latch = true) : ∃ r, issue t s = .next r ∧ r.ier = s.ier ∧ r.txq = s.txq ∧ r.rxq = s.rxq ∧
      ∀ ier txq rxq, issue t (s.withDataBank ier txq rxq) = .next (r.withDataBank ier txq rxq) := by
  have hb : (decode s.platform s.latch t).bank = some true := hl ▸ bank_decode_of_banked_offset _ _ t ht ho
  obtain ⟨r, hr⟩ := exec_completes_of_bank hb s
  have hcomm (ier : Byte) (txq rxq : List Byte) :
      issue t (s.withDataBank ier txq rxq) = .next (r.withDataBank ier txq rxq) :=
    (exec_withDataBank hb ier txq rxq s).trans (by rw [hr, andThen_next])
  have hkeep : r = r.withDataBank s.ier s.txq s.rxq :=
    Host.Outcome.next.inj (hr.symm.trans (hcomm s.ier s.txq s.rxq))
  exact ⟨r, hr, (congrArg State.ier hkeep :), (congrArg State.txq hkeep :), (congrArg State.rxq hkeep :), hcomm⟩

/-! ## The statements -/

/-- Settles O6: an operation of one bank commutes with any change of the other bank's registers, and leaving them at their
present values gives the frame. -/
theorem bankSelectsTheRegister : Obligations.BankSelectsTheRegister := by
  refine ⟨fun p d => ?_, fun s t ht ho => ⟨fun hl dll dlh => ?_, fun hl ier txq rxq => ?_⟩⟩
  · exact ⟨decode_writeWord_zero p false d, decode_writeWord_zero p true d, decode_writeWord_four p false d,
      decode_writeWord_four p true d, decode_readWord_zero p false, decode_readWord_zero p true,
      decode_readWord_four p false, decode_readWord_four p true⟩
  · obtain ⟨r, hr, hdll, hdlh, hcomm⟩ := issue_of_latch_clear ht ho hl
    exact ⟨r, hr, hcomm dll dlh, hdll, hdlh⟩
  · obtain ⟨r, hr, hier, htxq, hrxq, hcomm⟩ := issue_of_latch_set ht ho hl
    exact ⟨r, hr, hcomm ier txq rxq, hier, htxq, hrxq⟩

/-- Settles O11: the two words are the reads of offsets 0 and 4, and each read only returns its register. -/
theorem divisorByteReads : Obligations.DivisorByteReads :=
  ⟨fun p => ⟨decode_readWord_zero p true, decode_readWord_four p true⟩, fun _ => ⟨rfl, rfl⟩⟩

/-- Settles O13: the word is the write of offset 4, and the write only stores the byte. -/
theorem ierWriteResult : Obligations.IerWriteResult :=
  ⟨fun p d => decode_writeWord_four p false d, fun _ _ => rfl⟩

end Sys2Proof.Machine
end

section
/-! SUPPORT. The statement of 43_init.md about the split of the divisor, and the lemmas it stands on: the two bytes as
remainders, the latch at the two divisor writes, and what each of them does. -/

namespace Sys2Proof.Machine

/-! ## The two bytes of the divisor -/

theorem toNat_divisorLowByte (d : BitVec 16) : (divisorLowByte d).toNat = d.toNat % 256 := by
  simp [divisorLowByte]

theorem toNat_divisorHighByte (d : BitVec 16) : (divisorHighByte d).toNat = d.toNat / 256 % 256 := by
  simp [divisorHighByte, Nat.shiftRight_eq_div_pow]

theorem divisorLowByte_eq_ofNat (d : BitVec 16) : divisorLowByte d = BitVec.ofNat 8 (d.toNat % 256) := by
  rw [← toNat_divisorLowByte, BitVec.ofNat_toNat, BitVec.setWidth_eq]

theorem divisorHighByte_eq_ofNat (d : BitVec 16) : divisorHighByte d = BitVec.ofNat 8 (d.toNat / 256 % 256) := by
  rw [← toNat_divisorHighByte, BitVec.ofNat_toNat, BitVec.setWidth_eq]

/-! ## The mode latch during the divisor writes -/

theorem latch_of_lcr_eq_0x80 {s : State} (h : s.lcr = 0x80) : s.latch = true := by
  simp [State.latch, h]

/-- At a position of the initialisation the invariant gives what has been written so far (43_init.md R140). -/
theorem Consistent.initProgress {s : State} {k : InitStep} {d : BitVec 16} (hc : Consistent s) (h : s.seq = .init k d) :
    InitProgress k d s := by
  have hf := hc.seq
  rw [SeqFacts, h] at hf
  exact hf.2

/-- The latch is set at the write of the low byte. -/
theorem Consistent.latch_at_divisorLow {s : State} {d : BitVec 16} (hc : Consistent s)
    (h : s.seq = .init .divisorLow d) : s.latch = true :=
  latch_of_lcr_eq_0x80 (hc.initProgress h)

/-- The latch is set at the write of the high byte. -/
theorem Consistent.latch_at_divisorHigh {s : State} {d : BitVec 16} (hc : Consistent s)
    (h : s.seq = .init .divisorHigh d) : s.latch = true :=
  latch_of_lcr_eq_0x80 (hc.initProgress h).1

/-! ## The divisor writes -/

/-- With the latch set, a write of offset 0 stores DLL and keeps DLH and the host's position. -/
theorem busWrite_offset0_of_latch {s : State} (hl : s.latch = true) (v : Byte) :
    ∃ u, busWrite 0#5 v s = .next u ∧ u.dll = v ∧ u.dlh = s.dlh ∧ u.seq = s.seq := by
  rw [busWrite_offset0, if_pos hl]
  exact ⟨_, rfl, rfl, damageIfChanged_dlh s.dll v s, damageIfChanged_seq s.dll v s⟩

/-- With the latch set, a write of offset 4 stores DLH and keeps DLL and the host's position. -/
theorem busWrite_offset4_of_latch {s : State} (hl : s.latch = true) (v : Byte) :
    ∃ u, busWrite 4#5 v s = .next u ∧ u.dlh = v ∧ u.dll = s.dll ∧ u.seq = s.seq := by
  rw [busWrite_offset4, if_pos hl]
  exact ⟨_, rfl, rfl, damageIfChanged_dll s.dlh v s, damageIfChanged_seq s.dlh v s⟩

/-- A host move of the initialisation is the write of its position, then the next position. -/
theorem moveStep_host_init {s u : State} {k : InitStep} {d : BitVec 16} (h : s.seq = .init k d)
    (hw : issue (initWord s.platform d k) s = .next u) :
    moveStep .host s = .next { u with seq := initNext d k } := by
  rw [moveStep, hostStep_init h, hw, andThen_next]

/-- A write that keeps the host's position is seen again from the state the host has moved on to. -/
theorem eq_next_seq_restored {o : Host.Outcome State Fault Refusal} {s u : State} (hw : o = .next u)
    (hseq : u.seq = s.seq) (q : SeqState) : o = .next { ({ u with seq := q } : State) with seq := s.seq } := by
  rw [hw, ← hseq]

/-- Settles O50: the invariant gives the latch, the latch makes the write of offset 0 or 4 one of DLL or DLH, and the byte
written is the remainder. -/
theorem divisorSplit : Obligations.DivisorSplit := by
  refine fun s d hc => ⟨fun h => ?low, fun h => ?high⟩
  case low =>
    have hl := hc.latch_at_divisorLow h
    obtain ⟨u, hw, hdll, hdlh, hseq⟩ := busWrite_offset0_of_latch hl (divisorLowByte d)
    have hmove := moveStep_host_init h ((issue_initWord s d .divisorLow).trans hw)
    rw [divisorLowByte_eq_ofNat] at hw
    exact ⟨_, hl, hmove, eq_next_seq_restored hw hseq _,
      (congrArg BitVec.toNat hdll).trans (toNat_divisorLowByte d), rfl, hdlh⟩
  case high =>
    have hl := hc.latch_at_divisorHigh h
    obtain ⟨u, hw, hdlh, hdll, hseq⟩ := busWrite_offset4_of_latch hl (divisorHighByte d)
    have hmove := moveStep_host_init h ((issue_initWord s d .divisorHigh).trans hw)
    rw [divisorHighByte_eq_ofNat] at hw
    exact ⟨_, hl, hmove, eq_next_seq_restored hw hseq _,
      (congrArg BitVec.toNat hdlh).trans (toNat_divisorHighByte d), rfl, hdll⟩

end Sys2Proof.Machine
end

section
/-! SUPPORT. The statement of 60_exceptions.md about the completion of every bus operation. -/

namespace Sys2Proof.Machine

/-- Settles O22: the operations of a bank, THR and RBR among them, complete by `exec_completes_of_bank`; the meaning of
every other operation is a next state in all its branches, refused ones included. -/
theorem everyBusOperationCompletes : Obligations.EveryBusOperationCompletes := by
  intro i s
  cases i with
  | rbrRead | thrWrite | dllRead | dllWrite | ierRead | ierWrite | dlhRead | dlhWrite =>
    exact exec_completes_of_bank rfl s
  | fcrWrite | lcrRead | lcrWrite | mcrRead | mcrWrite => exact ⟨_, rfl⟩
  | lsrRead | txcntLoRead | txcntHiRead => exact ⟨_, rfl⟩
  | off8Read | lsrWrite | reservedOffset | badWord => exact ⟨_, rfl⟩

end Sys2Proof.Machine
end

section
/-! SUPPORT. The statements of 30_encoding.md: what each row of the decode table reads from a word, that the table is a
round trip in both directions, and where the mode latch and the malformed words come in. -/

namespace Sys2Proof

/-! ## The words of the offsets the latch does not reach -/

theorem decode_readWord_eight (p : Platform) (l : Bool) : decode p l (readWord 8) = .off8Read := by
  simp [readWord, decode_make, fixedRows]

theorem decode_writeWord_eight (p : Platform) (l : Bool) (d : Byte) : decode p l (writeWord 8 d) = .fcrWrite d := by
  simp [writeWord, decode_make, fixedRows]

theorem decode_readWord_twelve (p : Platform) (l : Bool) : decode p l (readWord 12) = .lcrRead := by
  simp [readWord, decode_make, fixedRows]

theorem decode_writeWord_twelve (p : Platform) (l : Bool) (d : Byte) : decode p l (writeWord 12 d) = .lcrWrite d := by
  simp [writeWord, decode_make, fixedRows]

theorem decode_readWord_sixteen (p : Platform) (l : Bool) : decode p l (readWord 16) = .mcrRead := by
  simp [readWord, decode_make, fixedRows]

theorem decode_writeWord_sixteen (p : Platform) (l : Bool) (d : Byte) : decode p l (writeWord 16 d) = .mcrWrite d := by
  simp [writeWord, decode_make, fixedRows]

theorem decode_readWord_twenty (p : Platform) (l : Bool) : decode p l (readWord 20) = .lsrRead := by
  simp [readWord, decode_make, fixedRows]

theorem decode_writeWord_twenty (p : Platform) (l : Bool) (d : Byte) : decode p l (writeWord 20 d) = .lsrWrite d := by
  simp [writeWord, decode_make, fixedRows]

/-! ## The ready-count rows and the reserved row -/

/-- No fixed row claims an offset outside the map. -/
theorem find?_fixedRows_of_not_mapped (l w : Bool) {o : Offset} (h : o ∉ mappedOffsets) :
    fixedRows.find? (fun r => w == r.write && o == r.off && r.latch.all (fun b => l == b)) = none := by
  simp [mappedOffsets] at h
  simp [fixedRows, h]

/-- A legal ready-count platform has two distinct offsets outside the map. -/
theorem Platform.wf_count8 {p : Platform} {lo hi : Offset} (h : p.wf = true) (hp : p.probeTx = .count8 lo hi) :
    lo ≠ hi ∧ lo ∉ mappedOffsets ∧ hi ∉ mappedOffsets := by
  simp only [Platform.wf, hp, Bool.and_eq_true] at h
  simpa [and_assoc] using h.2

theorem decode_readWord_txcntLo {p : Platform} {lo hi : Offset} (l : Bool) (h : p.wf = true)
    (hp : p.probeTx = .count8 lo hi) : decode p l (readWord lo) = .txcntLoRead := by
  obtain ⟨-, hlo, -⟩ := Platform.wf_count8 h hp
  rw [readWord, decode_make _ _ _ _ _ rfl, List.find?_append, find?_fixedRows_of_not_mapped l false hlo]
  simp [txcntRows, hp]

theorem decode_readWord_txcntHi {p : Platform} {lo hi : Offset} (l : Bool) (h : p.wf = true)
    (hp : p.probeTx = .count8 lo hi) : decode p l (readWord hi) = .txcntHiRead := by
  obtain ⟨hne, -, hhi⟩ := Platform.wf_count8 h hp
  rw [readWord, decode_make _ _ _ _ _ rfl, List.find?_append, find?_fixedRows_of_not_mapped l false hhi]
  simp [txcntRows, hp, beq_false_of_ne hne.symm]

/-- No ready-count row claims an access that `claimed` denies. -/
theorem find?_txcntRows_of_not_claimed (p : Platform) (l : Bool) {w : Bool} {o : Offset} (h : claimed p w o = false) :
    (txcntRows p).find? (fun r => w == r.write && o == r.off && r.latch.all (fun b => l == b)) = none := by
  cases hp : p.probeTx with
  | thre => simp [txcntRows, hp]
  | count8 lo hi =>
    cases w with
    | true => simp [txcntRows, hp]
    | false =>
      simp [claimed, Platform.txcntLoOff, Platform.txcntHiOff, hp] at h
      simp [txcntRows, hp, Ne.symm h.2.1, Ne.symm h.2.2]

/-- An access that no row claims is the reserved one. -/
theorem decode_make_of_not_claimed (p : Platform) (l : Bool) {w : Bool} {o : Offset} {d : Byte}
    (h : claimed p w o = false) (hd : (w || d == 0) = true) :
    decode p l (TWord.make w o d) = .reservedOffset w o d := by
  have hm : o ∉ mappedOffsets := by simpa using (Bool.or_eq_false_iff.mp h).1
  simp [decode_make _ _ _ _ _ hd, find?_fixedRows_of_not_mapped l w hm, find?_txcntRows_of_not_claimed p l h]

/-! ## The two round trips -/

/-- An operation of a bank is issued under that bank's latch. -/
theorem Instr.latch_of_inBank {i : Instr} {l b : Bool} (h : i.inBank l = true) (hb : i.bank = some b) : l = b := by
  have hbl : b = l := by simpa [Instr.inBank, hb] using h
  exact hbl.symm

/-- Settles O3: one row of the table per operation; the bank gives the latch at offsets 0 and 4. -/
theorem decodeOfEncodeIsTheInstruction : Obligations.DecodeOfEncodeIsTheInstruction := by
  intro p l i hp hi hb
  cases i with
  | rbrRead => obtain rfl := Instr.latch_of_inBank hb rfl; exact decode_readWord_zero p false
  | thrWrite d => obtain rfl := Instr.latch_of_inBank hb rfl; exact decode_writeWord_zero p false d
  | dllRead => obtain rfl := Instr.latch_of_inBank hb rfl; exact decode_readWord_zero p true
  | dllWrite d => obtain rfl := Instr.latch_of_inBank hb rfl; exact decode_writeWord_zero p true d
  | ierRead => obtain rfl := Instr.latch_of_inBank hb rfl; exact decode_readWord_four p false
  | ierWrite d => obtain rfl := Instr.latch_of_inBank hb rfl; exact decode_writeWord_four p false d
  | dlhRead => obtain rfl := Instr.latch_of_inBank hb rfl; exact decode_readWord_four p true
  | dlhWrite d => obtain rfl := Instr.latch_of_inBank hb rfl; exact decode_writeWord_four p true d
  | fcrWrite d => exact decode_writeWord_eight p l d
  | off8Read => exact decode_readWord_eight p l
  | lcrRead => exact decode_readWord_twelve p l
  | lcrWrite d => exact decode_writeWord_twelve p l d
  | mcrRead => exact decode_readWord_sixteen p l
  | mcrWrite d => exact decode_writeWord_sixteen p l d
  | lsrRead => exact decode_readWord_twenty p l
  | lsrWrite d => exact decode_writeWord_twenty p l d
  | txcntLoRead =>
    cases ht : p.probeTx with
    | thre => simp [Instr.wf, Platform.txcntLoOff, ht] at hi
    | count8 lo hi => simpa [encode, Platform.txcntLoOff, ht] using decode_readWord_txcntLo l hp ht
  | txcntHiRead =>
    cases ht : p.probeTx with
    | thre => simp [Instr.wf, Platform.txcntHiOff, ht] at hi
    | count8 lo hi => simpa [encode, Platform.txcntHiOff, ht] using decode_readWord_txcntHi l hp ht
  | reservedOffset w o d =>
    obtain ⟨hc, hd⟩ : claimed p w o = false ∧ (w || d == 0) = true := by simpa [Instr.wf] using hi
    exact decode_make_of_not_claimed p l hc hd
  | badWord t => exact decode_of_not_isTransaction p l t (by simpa [Instr.wf] using hi)

/-- An instruction whose word is `t` and that some word encodes in the bank. -/
def IsReadingOf (p : Platform) (l : Bool) (t : TWord) (i : Instr) : Prop :=
  encode p i = t ∧ i.wf p = true ∧ i.inBank l = true

/-- At an offset of the map. -/
theorem decode_make_isReadingOf_of_mapped (p : Platform) (l w : Bool) {o : Offset} (d : Byte) (ho : o ∈ mappedOffsets)
    (hd : (w || d == 0) = true) : IsReadingOf p l (TWord.make w o d) (decode p l (TWord.make w o d)) := by
  have hread : w = false → TWord.make w o d = readWord o := fun hw => by
    have hd0 : d = 0 := by simpa [hw] using hd
    rw [hw, hd0]; rfl
  have hwrite : w = true → TWord.make w o d = writeWord o d := fun hw => by rw [hw]; rfl
  simp only [mappedOffsets, List.mem_cons, List.not_mem_nil, or_false] at ho
  cases w with
  | false =>
    rw [hread rfl]
    obtain rfl | rfl | rfl | rfl | rfl | rfl := ho
    · rw [decode_readWord_zero]; cases l <;> exact ⟨rfl, rfl, rfl⟩
    · rw [decode_readWord_four]; cases l <;> exact ⟨rfl, rfl, rfl⟩
    · rw [decode_readWord_eight]; exact ⟨rfl, rfl, rfl⟩
    · rw [decode_readWord_twelve]; exact ⟨rfl, rfl, rfl⟩
    · rw [decode_readWord_sixteen]; exact ⟨rfl, rfl, rfl⟩
    · rw [decode_readWord_twenty]; exact ⟨rfl, rfl, rfl⟩
  | true =>
    rw [hwrite rfl]
    obtain rfl | rfl | rfl | rfl | rfl | rfl := ho
    · rw [decode_writeWord_zero]; cases l <;> exact ⟨rfl, rfl, rfl⟩
    · rw [decode_writeWord_four]; cases l <;> exact ⟨rfl, rfl, rfl⟩
    · rw [decode_writeWord_eight]; exact ⟨rfl, rfl, rfl⟩
    · rw [decode_writeWord_twelve]; exact ⟨rfl, rfl, rfl⟩
    · rw [decode_writeWord_sixteen]; exact ⟨rfl, rfl, rfl⟩
    · rw [decode_writeWord_twenty]; exact ⟨rfl, rfl, rfl⟩

/-- At the offsets of the ready-count. -/
theorem decode_readWord_isReadingOf_of_txcnt {p : Platform} {o : Offset} (l : Bool) (hp : p.wf = true)
    (ho : p.txcntLoOff = some o ∨ p.txcntHiOff = some o) : IsReadingOf p l (readWord o) (decode p l (readWord o)) := by
  cases ht : p.probeTx with
  | thre => simp [Platform.txcntLoOff, Platform.txcntHiOff, ht] at ho
  | count8 lo hi =>
    simp only [Platform.txcntLoOff, Platform.txcntHiOff, ht, Option.some.injEq] at ho
    obtain rfl | rfl := ho
    · rw [decode_readWord_txcntLo l hp ht]
      simp [IsReadingOf, encode, Instr.wf, Instr.inBank, Instr.bank, Platform.txcntLoOff, ht]
    · rw [decode_readWord_txcntHi l hp ht]
      simp [IsReadingOf, encode, Instr.wf, Instr.inBank, Instr.bank, Platform.txcntHiOff, ht]

/-- Settles O4: a word is malformed, or at an offset of the map, or a read of the ready-count, or reserved. -/
theorem encodeOfDecodeIsTheWord : Obligations.EncodeOfDecodeIsTheWord := by
  intro p l t hp
  show IsReadingOf p l t (decode p l t)
  cases ht : t.isTransaction with
  | false =>
    rw [decode_of_not_isTransaction p l t ht]
    exact ⟨rfl, by simp [Instr.wf, ht], rfl⟩
  | true =>
    obtain ⟨w, o, d, rfl, hd⟩ := exists_make_of_isTransaction t ht
    cases hc : claimed p w o with
    | false =>
      rw [decode_make_of_not_claimed p l hc hd]
      exact ⟨rfl, by simpa [Instr.wf, hc] using hd, rfl⟩
    | true =>
      simp only [claimed, Bool.or_eq_true, Bool.and_eq_true, Bool.not_eq_true', beq_iff_eq,
        List.contains_iff_mem] at hc
      obtain ho | ⟨rfl, ho⟩ := hc
      · exact decode_make_isReadingOf_of_mapped p l w d ho hd
      · obtain rfl : d = 0 := by simpa using hd
        exact decode_readWord_isReadingOf_of_txcnt l hp ho

/-! ## Where the latch matters -/

/-- A row that looks at the latch stands at offset 0 or 4. -/
theorem latch_eq_none_of_mem_rows {p : Platform} {r : DecodeRow} (hr : r ∈ fixedRows ++ txcntRows p) (h0 : r.off ≠ 0)
    (h4 : r.off ≠ 4) : r.latch = none := by
  rw [List.mem_append] at hr
  obtain hr | hr := hr
  · have hall : ∀ r ∈ fixedRows, r.off = 0 ∨ r.off = 4 ∨ r.latch = none := by simp [fixedRows]
    obtain h | h | h := hall r hr
    · exact absurd h h0
    · exact absurd h h4
    · exact h
  · unfold txcntRows at hr
    split at hr
    · simp at hr
    · simp only [List.mem_cons, List.not_mem_nil, or_false] at hr
      obtain rfl | rfl := hr <;> rfl

/-- Settles O7: every row tests a word of another offset alike in both banks. -/
theorem latchMattersOnlyAtOffsetsZeroAndFour : Obligations.LatchMattersOnlyAtOffsetsZeroAndFour := by
  intro p t h0 h4
  cases ht : t.isTransaction with
  | false => rw [decode_of_not_isTransaction _ _ _ ht, decode_of_not_isTransaction _ _ _ ht]
  | true =>
    obtain ⟨w, o, d, rfl, hd⟩ := exists_make_of_isTransaction t ht
    rw [offset_make] at h0 h4
    rw [decode_make _ _ _ _ _ hd, decode_make _ _ _ _ _ hd, List.find?_congr]
    intro r hr
    by_cases ho : o = r.off
    · rw [latch_eq_none_of_mem_rows hr (ho ▸ h0) (ho ▸ h4)]; rfl
    · rw [beq_false_of_ne ho, Bool.and_false, Bool.false_and, Bool.false_and]

/-! ## Malformed words -/

/-- No row above the last two selects a bad word. -/
theorem op_ne_badWord_of_mem_rows {p : Platform} {r : DecodeRow} (hr : r ∈ fixedRows ++ txcntRows p) (d : Byte)
    (x : TWord) : r.op d ≠ .badWord x := by
  rw [List.mem_append] at hr
  obtain hr | hr := hr
  · have hall : ∀ r ∈ fixedRows, r.op d ≠ .badWord x := by simp [fixedRows]
    exact hall r hr
  · unfold txcntRows at hr
    split at hr
    · simp at hr
    · simp only [List.mem_cons, List.not_mem_nil, or_false] at hr
      obtain rfl | rfl := hr <;> simp

/-- Exactly the words that fail the check decode to a bad word. -/
theorem decode_eq_badWord_iff (p : Platform) (l : Bool) (t : TWord) :
    decode p l t = .badWord t ↔ t.isTransaction = false := by
  refine ⟨fun h => Bool.eq_false_iff.mpr fun ht => ?_, decode_of_not_isTransaction p l t⟩
  obtain ⟨w, o, d, rfl, hd⟩ := exists_make_of_isTransaction t ht
  rw [decode_make _ _ _ _ _ hd] at h
  split at h
  · exact op_ne_badWord_of_mem_rows (List.mem_of_find?_eq_some ‹_›) d _ h
  · cases h

/-- Settles O8: the words that fail the check of R71, bit by bit; the refusal only sets the mark. -/
theorem malformedWordsAreRefused : Obligations.MalformedWordsAreRefused := by
  refine ⟨fun p l t => ?_, fun t s => rfl⟩
  rw [decode_eq_badWord_iff]
  simp only [TWord.isTransaction, Bool.and_eq_false_iff, Bool.not_eq_false', Bool.or_eq_false_iff,
    beq_eq_false_iff_ne, or_assoc]
  rfl

/-! ## The mask and match columns -/

/-- The `mask` column tests bits 15 to 8, and bit 14 only where the row looks at the latch. -/
theorem getLsbD_mask (r : DecodeRow) {i : Nat} (hi : i < 16) :
    r.mask.getLsbD i = (decide (8 ≤ i) && (i != 14 || r.latch.isSome)) := by
  unfold DecodeRow.mask
  cases r.latch <;> simp only [Option.isSome] <;> decide +revert

/-- The `match` column, bit by bit. -/
theorem getLsbD_pattern (r : DecodeRow) {i : Nat} (hi : i < 16) : r.pattern.getLsbD i =
    if i < 8 then false else if i < 13 then r.off.getLsbD (i - 8) else if i = 13 then false
    else if i = 14 then r.latch.getD false else r.write := by
  simp only [DecodeRow.pattern, BitVec.getLsbD_append]
  obtain h | h | rfl | rfl | rfl : i < 8 ∨ (8 ≤ i ∧ i < 13) ∨ i = 13 ∨ i = 14 ∨ i = 15 := by omega
  · simp [h]
  · simp [h, show ¬ i < 8 by omega, show i - 8 < 5 by omega]
  · simp
  · simp
  · simp

/-- The bits of a word's offset are its bits 8 to 12. -/
theorem getLsbD_offset (x : TWord) {j : Nat} (hj : j < 5) : x.offset.getLsbD j = x.getLsbD (8 + j) := by
  simp [TWord.offset, hj]

/-- A word agrees with the row's `match` column under its `mask` column exactly when every field tested is the row's. -/
theorem and_mask_eq_pattern_iff (r : DecodeRow) (x : TWord) : x &&& r.mask = r.pattern ↔
    x.isWrite = r.write ∧ x.zeroBit = false ∧ x.offset = r.off ∧ ∀ l, r.latch = some l → x.latchBit = l := by
  constructor
  · intro h
    have hbit {i : Nat} (hi : i < 16) := congrArg (BitVec.getLsbD · i) h
    simp +contextual only [BitVec.getLsbD_and, getLsbD_mask, getLsbD_pattern] at hbit
    refine ⟨?write, ?zero, ?offset, ?latch⟩
    case write => simpa [TWord.isWrite] using hbit (i := 15) (by decide)
    case zero => simpa [TWord.zeroBit] using hbit (i := 13) (by decide)
    case offset =>
      refine BitVec.eq_of_getLsbD_eq fun j hj => ?_
      rw [getLsbD_offset x hj]
      simpa [bne_iff_ne.mpr (show 8 + j ≠ 14 by omega), show 8 + j < 13 by omega] using hbit (i := 8 + j) (by omega)
    case latch =>
      intro l hl
      simpa [TWord.latchBit, hl] using hbit (i := 14) (by decide)
  · rintro ⟨hw, hz, ho, hl⟩
    refine BitVec.eq_of_getLsbD_eq fun i hi => ?_
    rw [BitVec.getLsbD_and, getLsbD_mask r hi, getLsbD_pattern r hi]
    obtain h | h | rfl | rfl | rfl : i < 8 ∨ (8 ≤ i ∧ i < 13) ∨ i = 13 ∨ i = 14 ∨ i = 15 := by omega
    · simp [h]
    · rw [← ho, getLsbD_offset x (by omega)]
      simp [h, show ¬ i < 8 by omega, show i ≠ 14 by omega, show 8 + (i - 8) = i by omega]
    · simpa [TWord.zeroBit] using hz
    · cases hr : r.latch with
      | none => simp
      | some l => simpa [TWord.latchBit] using hl l hr
    · simpa [TWord.isWrite] using hw

/-- Settles O5: the fields a row tests are the bits under its mask. -/
theorem rowsTestMaskAndMatch : Obligations.RowsTestMaskAndMatch := by
  refine ⟨fun r x => ?_, by decide⟩
  rw [Bool.eq_iff_iff, beq_iff_eq, and_mask_eq_pattern_iff]
  cases h : r.latch <;> simp [DecodeRow.hits, h, and_assoc]

/-- Settles O2: each word is the read or the write word of its offset, or fails the check of R71. -/
theorem specWordsDecode : Obligations.SpecWordsDecode := fun p =>
  ⟨decode_writeWord_zero p false 0x41, decode_writeWord_zero p true 0x41, decode_readWord_zero p false,
    decode_readWord_zero p true, decode_writeWord_four p false 0, decode_writeWord_four p true 0,
    decode_readWord_four p false, decode_readWord_four p true, decode_readWord_twenty p true,
    decode_writeWord_twelve p true 0x80, decode_readWord_twelve p false, decode_writeWord_eight p false 0xC7,
    decode_writeWord_sixteen p false 0x20, decode_readWord_sixteen p false, decode_readWord_eight p false,
    decode_writeWord_twenty p false 0,
    decode_make_of_not_claimed p false (w := true) (o := 24) (d := 0) rfl rfl,
    decode_make_of_not_claimed p false (w := true) (o := 31) (d := 0x55) rfl rfl,
    decode_of_not_isTransaction p false 0x2000 rfl, decode_of_not_isTransaction p false 0x4000 rfl,
    decode_of_not_isTransaction p false 0x1401 rfl⟩

end Sys2Proof
end

section
/-! SUPPORT. What each bus operation can do to the state, said once (`Effect`), and the statements of
40_register_access.md and 60_exceptions.md about single operations that follow from it. -/

namespace Sys2Proof

/-! ## Kinds of operations -/

/-- The operation is a write that the block refuses, a malformed word among them. -/
def Instr.RefusedWrite (fcrInit : Byte) (i : Instr) : Prop :=
  (∃ d, i = .fcrWrite d ∧ d ≠ fcrInit) ∨ (∃ d, i = .lsrWrite d) ∨ (∃ off d, i = .reservedOffset true off d) ∨
    ∃ x, i = .badWord x

/-- The operation is a read that the block refuses. -/
def Instr.RefusedRead (i : Instr) : Prop := i = .off8Read ∨ ∃ off d, i = .reservedOffset false off d

/-- The reads that return a stored or computed byte and touch nothing else. -/
def plainReads : List Instr :=
  [.rbrRead, .dllRead, .ierRead, .dlhRead, .lcrRead, .mcrRead, .txcntLoRead, .txcntHiRead]

end Sys2Proof

namespace Sys2Proof.Machine

/-! ## The effect of an operation -/

/-- `Effect s i t`: the operation `i` may leave `t` when it is performed in `s`, by the kinds of effect there are. -/
inductive Effect (s : State) : Instr → State → Prop
  /-- a byte is returned -/
  | returned {i : Instr} (v : Byte) (hi : i ∈ plainReads) : Effect s i (returnByte v s)
  /-- the head of the receive queue is returned -/
  | head (v : Byte) (rest : List Byte) (hq : s.rxq = v :: rest) :
      Effect s .rbrRead (returnByte v { s with rxq := if s.platform.rxReadPops then rest else v :: rest })
  /-- a draw is returned for the empty queue -/
  | emptyDraw (hq : s.rxq = []) : Effect s .rbrRead (returnDraw s)
  /-- the status is returned, made with a draw -/
  | status (v : Byte) : Effect s .lsrRead (countDraw (returnByte v s))
  /-- a read is refused, and returns a draw -/
  | refusedRead {i : Instr} (r : Reason) (hi : i.RefusedRead) : Effect s i (returnDraw (refuse r s))
  /-- a write is refused -/
  | refusedWrite {i : Instr} (r : Reason) (hi : i.RefusedWrite s.platform.fcrInit) : Effect s i (refuse r s)
  /-- a byte is queued -/
  | queued (d : Byte) (hroom : s.txq.length < s.capTx) : Effect s (.thrWrite d) { s with txq := s.txq ++ [d] }
  /-- a byte is lost -/
  | overrun (d : Byte) (hfull : s.capTx ≤ s.txq.length) : Effect s (.thrWrite d) (raiseTxOverrun d s)
  /-- the FIFO clear -/
  | cleared : Effect s (.fcrWrite s.platform.fcrInit) { s with fcr := s.platform.fcrInit, fifoEn := true, txq := [], rxq := [] }
  /-- IER is stored -/
  | ier (d : Byte) : Effect s (.ierWrite d) { s with ier := d }
  /-- LCR is stored -/
  | lcr (d : Byte) : Effect s (.lcrWrite d) { damageIfChanged s.lcr d s with lcr := d }
  /-- MCR is stored -/
  | mcr (d : Byte) : Effect s (.mcrWrite d) { damageIfChanged s.mcr d s with mcr := d }
  /-- DLL is stored -/
  | dll (d : Byte) : Effect s (.dllWrite d) { damageIfChanged s.dll d s with dll := d }
  /-- DLH is stored -/
  | dlh (d : Byte) : Effect s (.dlhWrite d) { damageIfChanged s.dlh d s with dlh := d }

/-- Every operation has one of the effects. -/
theorem exists_effect (i : Instr) (s : State) : ∃ t, exec i s = .next t ∧ Effect s i t := by
  cases i with
  | rbrRead =>
    obtain ⟨v, rest, hq, e⟩ | ⟨hq, -, e⟩ | ⟨v, -, -, e⟩ := execRbrRead_cases s
    · exact ⟨_, e, .head v rest hq⟩
    · exact ⟨_, e, .emptyDraw hq⟩
    · exact ⟨_, e, .returned v (by decide)⟩
  | thrWrite d =>
    obtain ⟨h, e⟩ | ⟨h, e⟩ := execThrWrite_cases d s
    · exact ⟨_, e, .queued d h⟩
    · exact ⟨_, e, .overrun d h⟩
  | fcrWrite d =>
    obtain ⟨rfl, e⟩ | ⟨h, e⟩ := execFcrWrite_cases d s
    · exact ⟨_, e, .cleared⟩
    · exact ⟨_, e, .refusedWrite _ (.inl ⟨d, rfl, h⟩)⟩
  | dllRead | ierRead | dlhRead | lcrRead | mcrRead | txcntLoRead | txcntHiRead =>
    exact ⟨_, rfl, .returned _ (by decide)⟩
  | lsrRead => exact ⟨_, rfl, .status _⟩
  | ierWrite d => exact ⟨_, rfl, .ier d⟩
  | lcrWrite d => exact ⟨_, rfl, .lcr d⟩
  | mcrWrite d => exact ⟨_, rfl, .mcr d⟩
  | dllWrite d => exact ⟨_, rfl, .dll d⟩
  | dlhWrite d => exact ⟨_, rfl, .dlh d⟩
  | off8Read => exact ⟨_, rfl, .refusedRead _ (.inl rfl)⟩
  | lsrWrite d => exact ⟨_, rfl, .refusedWrite _ (.inr (.inl ⟨d, rfl⟩))⟩
  | reservedOffset w off d =>
    cases w with
    | true => exact ⟨_, rfl, .refusedWrite _ (.inr (.inr (.inl ⟨off, d, rfl⟩)))⟩
    | false => exact ⟨_, rfl, .refusedRead _ (.inr ⟨off, d, rfl⟩)⟩
  | badWord x => exact ⟨_, rfl, .refusedWrite _ (.inr (.inr (.inr ⟨x, rfl⟩)))⟩

/-- What an operation left, it left by one of the effects. -/
theorem effect_of_exec {i : Instr} {s t : State} (h : exec i s = .next t) : Effect s i t := by
  obtain ⟨u, hu, he⟩ := exists_effect i s
  obtain rfl : u = t := Host.Outcome.next.inj (hu.symm.trans h)
  exact he

/-! ## Frames -/

/-- Settles O25: effect by effect, the fields that move are those the statement names for the operation. -/
theorem operationsChangeOnlyWhatTheyName : Obligations.OperationsChangeOnlyWhatTheyName := by
  intro i s t h
  cases effect_of_exec h with
  | returned v hi =>
    simp [plainReads] at hi
    obtain rfl | rfl | rfl | rfl | rfl | rfl | rfl | rfl := hi <;> simp
  | refusedRead r hi => obtain rfl | ⟨off, d, rfl⟩ := hi <;> simp
  | refusedWrite r hi => obtain ⟨d, rfl, -⟩ | ⟨d, rfl⟩ | ⟨off, d, rfl⟩ | ⟨x, rfl⟩ := hi <;> simp
  | head | emptyDraw | status | queued | overrun | cleared | ier | lcr | mcr | dll | dlh => simp

/-- The fields of the host that no bus operation touches. -/
theorem exec_keeps_host {i : Instr} {s t : State} (h : exec i s = .next t) :
    t.platform = s.platform ∧ t.seq = s.seq ∧ t.results = s.results ∧ t.program = s.program ∧ t.schedule = s.schedule := by
  cases effect_of_exec h <;> simp

/-- Settles O27: only a lost byte raises the transmit mark and only a refusal the other; a refusal is `refuse`, with a draw
returned if it is a read. -/
theorem oneOperationRaisesAtMostOneMark : Obligations.OneOperationRaisesAtMostOneMark := by
  intro i s t h
  cases effect_of_exec h with
  | refusedRead r hi => exact ⟨.inl rfl, rfl, fun _ => rfl⟩
  | refusedWrite r hi => exact ⟨.inl rfl, rfl, fun _ => rfl⟩
  | returned | head | emptyDraw | status | queued | overrun | cleared | ier | lcr | mcr | dll | dlh => simp

/-! ## The data registers -/

/-- Settles O9: the queue holds a byte, or the platform says what an empty one gives. -/
theorem rbrReadResult : Obligations.RbrReadResult := by
  refine ⟨fun s v rest hq => ?_, fun s hq => ?_⟩
  · obtain ⟨v', rest', hq', e⟩ | ⟨hq', -, -⟩ | ⟨_, hq', -, -⟩ := execRbrRead_cases s
    · obtain ⟨rfl, rfl⟩ : v = v' ∧ rest = rest' := by simpa [hq] using hq'
      exact e.trans (by rw [← hq]; rfl)
    · simp [hq] at hq'
    · simp [hq] at hq'
  · obtain ⟨_, _, hq', -⟩ | ⟨-, hv, e⟩ | ⟨v, -, hv, e⟩ := execRbrRead_cases s
    · simp [hq] at hq'
    · exact e.trans (by rw [hv]; rfl)
    · exact e.trans (by rw [hv]; rfl)

/-- Settles O10: the two cases of a write of THR exclude each other. -/
theorem thrWriteResult : Obligations.ThrWriteResult := by
  intro s d
  obtain ⟨h, e⟩ | ⟨h, e⟩ := execThrWrite_cases d s
  · exact ⟨fun _ => e, fun h' => absurd h (Nat.not_lt.mpr h')⟩
  · exact ⟨fun h' => absurd h' (Nat.not_lt.mpr h), fun _ => e⟩

/-- The next state of a write of DLL, the possible damage written out. -/
theorem exec_dllWrite (d : Byte) (s : State) : exec (.dllWrite d) s = .next
    { s with dll := d, tsr := if d = s.dll then s.tsr else s.tsr.map (fun f => { f with ok := false }) } := by
  simp only [exec, execDllWrite, damageIfChanged_eq]

/-- The next state of a write of DLH. -/
theorem exec_dlhWrite (d : Byte) (s : State) : exec (.dlhWrite d) s = .next
    { s with dlh := d, tsr := if d = s.dlh then s.tsr else s.tsr.map (fun f => { f with ok := false }) } := by
  simp only [exec, execDlhWrite, damageIfChanged_eq]

/-- Settles O12: the two words are the writes of offsets 0 and 4. -/
theorem divisorByteWrites : Obligations.DivisorByteWrites :=
  ⟨fun p d => ⟨decode_writeWord_zero p true d, decode_writeWord_four p true d⟩,
    fun s d => ⟨exec_dllWrite d s, exec_dlhWrite d s⟩⟩

/-! ## The control registers -/

/-- Settles O14: each read returns its register. -/
theorem controlRegisterReads : Obligations.ControlRegisterReads := fun _ => ⟨rfl, rfl, rfl⟩

/-- Settles O15: the two cases of a write of FCR exclude each other. -/
theorem fcrWriteResult : Obligations.FcrWriteResult := by
  intro s d
  obtain ⟨h, e⟩ | ⟨h, e⟩ := execFcrWrite_cases d s
  · exact ⟨fun _ => e, fun h' => absurd h h'⟩
  · exact ⟨fun h' => absurd h' h, fun _ => e⟩

/-- The next state of a write of LCR. -/
theorem exec_lcrWrite (d : Byte) (s : State) : exec (.lcrWrite d) s = .next
    { s with lcr := d, tsr := if d = s.lcr then s.tsr else s.tsr.map (fun f => { f with ok := false }) } := by
  simp only [exec, execLcrWrite, damageIfChanged_eq]

/-- The next state of a write of MCR. -/
theorem exec_mcrWrite (d : Byte) (s : State) : exec (.mcrWrite d) s = .next
    { s with mcr := d, tsr := if d = s.mcr then s.tsr else s.tsr.map (fun f => { f with ok := false }) } := by
  simp only [exec, execMcrWrite, damageIfChanged_eq]

/-- Settles O16: the word is the write of offset 12, and the latch is bit 7 of the byte stored. -/
theorem lcrWriteResult : Obligations.LcrWriteResult :=
  ⟨fun p l d => decode_writeWord_twelve p l d, fun s d => ⟨_, exec_lcrWrite d s, rfl, rfl⟩⟩

/-- Settles O17: the word is the write of offset 16. -/
theorem mcrWriteResult : Obligations.McrWriteResult :=
  ⟨fun p l d => decode_writeWord_sixteen p l d, fun s d => exec_mcrWrite d s⟩

/-- Settles O53: the two branches of the output's definition. -/
theorem interruptOutputInactiveWhileIerZero : Obligations.InterruptOutputInactiveWhileIerZero :=
  fun _ _ => ⟨fun h => if_pos h, fun h => if_neg h⟩

/-! ## The status -/

theorem threBit_eq_getLsbD (v : Byte) : threBit v = v.getLsbD 5 := by unfold threBit; decide +revert

theorem drBit_eq_getLsbD (v : Byte) : drBit v = v.getLsbD 0 := by unfold drBit; decide +revert

/-- The six other bits of a status byte are those of the draw. -/
theorem getLsbD_lsrValue_free (u : Byte) (s : State) {k : Nat} (h0 : k ≠ 0) (h5 : k ≠ 5) :
    (lsrValue u s).getLsbD k = u.getLsbD k := by
  have hmask : (if s.dr then 0x01 else 0 : Byte).getLsbD k = false ∧ (if s.thre then 0x20 else 0 : Byte).getLsbD k = false ∧
      (u.getLsbD k && (0xDE : Byte).getLsbD k) = u.getLsbD k := by
    obtain h | rfl | rfl | rfl | rfl | rfl | rfl : 8 ≤ k ∨ k = 1 ∨ k = 2 ∨ k = 3 ∨ k = 4 ∨ k = 6 ∨ k = 7 := by omega
    · simp [BitVec.getLsbD_of_ge _ _ h]
    all_goals cases s.dr <;> cases s.thre <;> simp
  obtain ⟨hd, ht, hu⟩ := hmask
  unfold lsrValue
  rw [BitVec.getLsbD_or, BitVec.getLsbD_or, BitVec.getLsbD_and, hu, hd, ht, Bool.or_false, Bool.or_false]

/-- Settles O19: bit by bit, the byte is `lsrValue` of the draw. -/
theorem lsrReadResult : Obligations.LsrReadResult := by
  intro s
  refine ⟨lsrValue s.nextDraw s, rfl, ?_, ?_, fun k h0 h5 => getLsbD_lsrValue_free _ s h0 h5⟩
  · rw [← drBit_eq_getLsbD, drBit_lsrValue]; simp
  · rw [← threBit_eq_getLsbD, threBit_lsrValue]; simp

/-- The bytes of the count, put together again. -/
theorem txcnt_bytes (s : State) :
    (s.txcnt.extractLsb' 8 8).toNat * 256 + (s.txcnt.extractLsb' 0 8).toNat = s.txcnt.toNat := by
  simp [BitVec.extractLsb'_toNat, Nat.shiftRight_eq_div_pow]
  omega

/-- Settles O20: the two bytes make up the count, which is the free space. -/
theorem txcntReads : Obligations.TxcntReads := by
  refine fun s => ⟨_, _, rfl, rfl, fun h => ?_⟩
  have hf : s.txFree < 65536 := h
  rw [txcnt_bytes, State.txcnt, if_pos hf, BitVec.toNat_ofNat, Nat.mod_eq_of_lt hf]
  rfl

/-! ## Refused operations -/

/-- Settles O21: each is `refuse`, and the two reads return a draw after it. -/
theorem refusedOperationsResult : Obligations.RefusedOperationsResult := fun _ _ _ => ⟨rfl, rfl, rfl, rfl⟩

/-! ## Raw accesses -/

/-- The byte at offset `off` of the window lies in it. -/
theorem touchesWindow_byte (p : Platform) (off : Offset) :
    touchesWindow p (p.uartBase + off.toNat) Width.byte.bytes = true := by
  have := off.isLt
  simp [touchesWindow, Width.bytes]
  omega

/-- The offset of the byte at offset `off`. -/
theorem offsetOf_uartBase_add (p : Platform) (off : Offset) : offsetOf p (p.uartBase + off.toNat) = off := by
  simp [offsetOf]

/-- A raw read wider than a byte, with any byte in the window, is refused and returns draws. -/
theorem memRead_wide {s : State} {addr : Nat} {n : Width} (hn : n ≠ .byte)
    (h : touchesWindow s.platform addr n.bytes = true) :
    memRead addr n s = .next (returnDraws n.bytes (refuse .refWidth s)) := by
  cases n with
  | byte => exact absurd rfl hn
  | half | word | double => exact if_pos h

/-- A raw write wider than a byte, with any byte in the window, is refused. -/
theorem memWrite_wide {s : State} {addr : Nat} {n : Width} (v : BitVec 64) (hn : n ≠ .byte)
    (h : touchesWindow s.platform addr n.bytes = true) : memWrite addr n v s = .next (refuse .refWidth s) := by
  cases n with
  | byte => exact absurd rfl hn
  | half | word | double => exact if_pos h

/-- Settles O23: a byte of the window is an access of its offset, and a wider access in the window is refused. -/
theorem rawAccessesInTheWindow : Obligations.RawAccessesInTheWindow := by
  refine ⟨fun s off v => ⟨?_, ?_⟩, fun s addr n v hn hlo hhi => ?_⟩
  · rw [memRead, if_pos (touchesWindow_byte s.platform off), offsetOf_uartBase_add]
  · rw [memWrite, if_pos (touchesWindow_byte s.platform off), offsetOf_uartBase_add]
  · have hw : touchesWindow s.platform addr n.bytes = true := by simp [touchesWindow, hlo, hhi]
    obtain ⟨bytes, hlen, e⟩ := returnDraws_eq n.bytes (refuse .refWidth s)
    exact ⟨memWrite_wide v hn hw, bytes, hlen, (memRead_wide hn hw).trans (by rw [e]; rfl)⟩

/-! ## A write is in force for the next access -/

/-- The bank of the accesses at offsets 0 and 4 after a write of LCR. -/
theorem latch_of_lcr {s : State} {d : Byte} (h : s.lcr = d) : s.latch = d.getLsbD 7 := by rw [← h]; rfl

/-- Settles O18: LCR's bit 7 is the latch of the next access, a register returns what was stored, and a queue that has just
taken a byte is not empty. -/
theorem writesAreInForceAtOnce : Obligations.WritesAreInForceAtOnce := by
  refine ⟨fun s d e => ?bank, fun s d => ?readBack, fun s d h => ?status⟩
  case bank =>
    refine ⟨_, (busWrite_lcr d s).trans (exec_lcrWrite d s), ?_⟩
    rw [busWrite_offset0, busWrite_offset4, busRead_offset0, busRead_offset4, latch_of_lcr rfl]
    cases d.getLsbD 7 <;> exact ⟨rfl, rfl, rfl, rfl⟩
  case readBack =>
    exact ⟨⟨_, rfl, rfl⟩, ⟨_, exec_lcrWrite d s, rfl⟩, ⟨_, exec_mcrWrite d s, rfl⟩, ⟨_, exec_dllWrite d s, rfl⟩,
      ⟨_, exec_dlhWrite d s, rfl⟩⟩
  case status =>
    refine ⟨_, _, _, (thrWriteResult s d).1 h, rfl, rfl, ?_⟩
    rw [← threBit_eq_getLsbD, threBit_lsrValue]; simp

end Sys2Proof.Machine
end

section
/-! SUPPORT. The statements of 41_link_state_probe.md and 42_transceiver.md about single moves of the host: what each probe
reads and answers, and the transitions of the composites that rest on them. -/

namespace Sys2Proof.Machine

/-! ## The probes, read by read -/

theorem threBit_eq_true_iff (v : Byte) : threBit v = true ↔ v &&& 0x20 ≠ 0 := bne_iff_ne

theorem drBit_eq_true_iff (v : Byte) : drBit v = true ↔ v &&& 0x01 ≠ 0 := bne_iff_ne

theorem countReady_eq_true_iff (hi lo : Byte) : countReady hi lo = true ↔ 8 ≤ hi.toNat * 256 + lo.toNat :=
  decide_eq_true_iff

/-- The state after a read of LSR. -/
def lsrRead (s : State) : State := countDraw (returnByte (lsrValue s.nextDraw s) s)

theorem busRead_lsr_next (s : State) : busRead 20#5 s = .next (lsrRead s) := busRead_lsr s

@[simp] theorem lsrRead_reads (s : State) : (lsrRead s).reads = s.reads ++ [lsrValue s.nextDraw s] := rfl

@[simp] theorem lastRead_lsrRead (s : State) : (lsrRead s).lastRead = lsrValue s.nextDraw s := lastRead_returnByte _ s

/-- On a status-bit platform the transmit probe is one read of LSR. -/
theorem txProbe_of_thre {s : State} (hp : s.platform.probeTx = .thre) (keep : Byte → SeqState)
    (finish : Bool → State → State) : txProbe keep finish s = .next (finish s.txq.isEmpty (lsrRead s)) := by
  simp only [txProbe, hp, busRead_lsr_next, andThen_next, lastRead_lsrRead, threBit_lsrValue]

/-- On a status-bit platform so is its second half (log 13). -/
theorem txProbeHi_of_thre {s : State} (hp : s.platform.probeTx = .thre) (l : Byte) (finish : Bool → State → State) :
    txProbeHi l finish s = .next (finish s.txq.isEmpty (lsrRead s)) := by
  simp only [txProbeHi, hp, busRead_lsr_next, andThen_next, lastRead_lsrRead, threBit_lsrValue]

/-- On a ready-count platform the first half of the transmit probe keeps the low byte of the count. -/
theorem txProbe_of_count8 {s : State} {lo hi : Offset} (hw : s.platform.wf = true)
    (hp : s.platform.probeTx = .count8 lo hi) (keep : Byte → SeqState) (finish : Bool → State → State) :
    txProbe keep finish s = .next
      { returnByte (s.txcnt.extractLsb' 0 8) s with seq := keep (s.txcnt.extractLsb' 0 8) } := by
  simp only [txProbe, hp, busRead_txcntLo s lo hi hw hp, execTxcntLoRead, andThen_next, lastRead_returnByte]

/-- On a ready-count platform the second half compares the count of the two bytes. -/
theorem txProbeHi_of_count8 {s : State} {lo hi : Offset} (hw : s.platform.wf = true)
    (hp : s.platform.probeTx = .count8 lo hi) (l : Byte) (finish : Bool → State → State) :
    txProbeHi l finish s = .next
      (finish (countReady (s.txcnt.extractLsb' 8 8) l) (returnByte (s.txcnt.extractLsb' 8 8) s)) := by
  simp only [txProbeHi, hp, busRead_txcntHi s lo hi hw hp, execTxcntHiRead, andThen_next, lastRead_returnByte]

/-- On a data-ready platform the receive probe is one read of LSR. -/
theorem rxProbe_of_dr {s : State} (hp : s.platform.probeRx = .dr) (finish : Bool → State → State) :
    rxProbe finish s = .next (finish (!s.rxq.isEmpty) (lsrRead s)) := by
  simp only [rxProbe, hp, busRead_lsr_next, andThen_next, lastRead_lsrRead, drBit_lsrValue]

/-- On a raw-value platform the receive probe is one read of offset 0. -/
theorem rxProbe_of_nonzero {s t : State} {pops : Bool} {empty : Option Byte} {v : Byte}
    (hp : s.platform.probeRx = .nonzero pops empty) (ht : busRead 0#5 s = .next t) (hv : t.reads = s.reads ++ [v])
    (finish : Bool → State → State) : rxProbe finish s = .next (finish (v != 0) t) := by
  simp only [rxProbe, hp, ht, andThen_next, lastRead_of_append hv]

/-- A read of RBR returns one byte. -/
theorem execRbrRead_returns (s : State) : ∃ v t, execRbrRead s = .next t ∧ t.reads = s.reads ++ [v] := by
  obtain ⟨v, rest, -, e⟩ | ⟨-, -, e⟩ | ⟨v, -, -, e⟩ := execRbrRead_cases s <;> exact ⟨_, _, e, rfl⟩

/-- A read of offset 0 returns one byte, in either bank. -/
theorem busRead_offset0_returns (s : State) : ∃ v t, busRead 0#5 s = .next t ∧ t.reads = s.reads ++ [v] := by
  rw [busRead_offset0]
  cases s.latch with
  | true => exact ⟨_, _, rfl, rfl⟩
  | false => exact execRbrRead_returns s

/-! ## The count -/

/-- While the free space fits 16 bits, the comparison is of the count that its high byte and the kept low byte make. -/
theorem countReady_txcnt_high {s : State} (h : s.txFree < 65536) (l : Byte) :
    countReady (s.txcnt.extractLsb' 8 8) l = decide (8 ≤ s.txFree / 256 * 256 + l.toNat) := by
  have hhi : s.txFree / 256 < 256 := by omega
  rw [txcnt_high s h, countReady, countOf, BitVec.toNat_ofNat, Nat.mod_eq_of_lt hhi]
  rfl

/-- A count made of a low byte of an earlier, smaller space is no more than the space now (41_link_state_probe.md R122). -/
theorem count_le_txFree {s : State} {l : Byte} (hl : LowByteOfEarlierSpace l s)
    (h : 8 ≤ s.txFree / 256 * 256 + l.toNat) : 8 ≤ s.txFree := by
  obtain ⟨n, hn, -, rfl⟩ := hl
  rw [BitVec.toNat_ofNat] at h
  omega

/-! ## The two probes by themselves -/

/-- Settles O39: the status bit read is the state of the queue, whatever was drawn for the other bits. -/
theorem statusBitProbes : Obligations.StatusBitProbes := by
  refine ⟨fun s hs hp => ⟨lsrValue s.nextDraw s, ?_⟩, fun s hs hp => ⟨lsrValue s.nextDraw s, ?_⟩⟩
  · have hready : decide (s.txq = []) = s.txq.isEmpty := by cases s.txq <;> rfl
    rw [moveStep, hostStep_txReady hs, txProbe_of_thre hp, hready]
    rfl
  · have hready : decide (s.rxq ≠ []) = !s.rxq.isEmpty := by cases s.rxq <;> rfl
    rw [moveStep, hostStep_rxReady hs, rxProbe_of_dr hp, hready]
    rfl

/-- Settles O40: the two halves of the probe, with the count written as the free space. -/
theorem readyCountProbe : Obligations.ReadyCountProbe := by
  refine ⟨fun s lo hi hs hw hp hf => ?_, fun s lo hi l hs hw hp hf => ?_⟩
  · rw [moveStep, hostStep_txReady hs, txProbe_of_count8 hw hp, txcnt_low s hf]
    rfl
  · rw [moveStep, hostStep_txReadyHi hs, txProbeHi_of_count8 hw hp, countReady_txcnt_high hf, txcnt_high s hf]
    rfl

/-- Settles O41: the result is the comparison, and the space is no less than the count compared. -/
theorem readyCountResultIsSound : Obligations.ReadyCountResultIsSound := by
  intro s t lo hi l hc hp hs h hr
  have hf : s.txFree < 65536 := txFree_lt_of_txDepth s hc.depth
  rw [readyCountProbe.2 s lo hi l hs hc.platform hp hf] at h
  obtain rfl := Host.Outcome.next.inj h
  have hready : 8 ≤ s.txFree / 256 * 256 + l.toNat := by simpa using hr
  have hl : LowByteOfEarlierSpace l s := by simpa only [SeqFacts, hs] using hc.seq
  exact count_le_txFree hl hready

/-- Settles O43: with the latch clear offset 0 is RBR, with the latch set it is DLL. -/
theorem rawValueProbe : Obligations.RawValueProbe := by
  refine fun s pops empty hs hp => ⟨fun hl => ?_, fun hl => ?_⟩
  · obtain ⟨v, t, ht, hv⟩ := execRbrRead_returns s
    have hbus : busRead 0#5 s = .next t := by simpa [busRead_offset0, hl] using ht
    refine ⟨v, t, ht, hv, ?_⟩
    rw [moveStep, hostStep_rxReady hs, rxProbe_of_nonzero hp hbus hv]
    rfl
  · have hbus : busRead 0#5 s = .next (returnByte s.dll s) := by rw [busRead_offset0, hl]; rfl
    rw [moveStep, hostStep_rxReady hs, rxProbe_of_nonzero hp hbus rfl]
    rfl

/-! ## The transitions of the composites -/

/-- The read of `POLL_READ`. -/
theorem hostStep_pollRead_of_busRead {s t : State} {v : Byte} (hs : s.seq = .pollRead) (ht : busRead 0#5 s = .next t)
    (hv : t.reads = s.reads ++ [v]) :
    hostStep s = .next { t with seq := .idle, results := t.results ++ [.polled (some v)] } := by
  rw [hostStep_pollRead hs, ht, andThen_next, finishPollRead, lastRead_of_append hv]

/-- A write of offset 0 completes, in either bank. -/
theorem busWrite_completes (off : Offset) (d : Byte) (s : State) : ∃ t, busWrite off d s = .next t :=
  everyBusOperationCompletes _ s

/-- Settles O38: one lemma for each probe's read in each variant, and the writes and reads of offset 0. -/
theorem sequencerTransitions : Obligations.SequencerTransitions := by
  refine ⟨fun s c rest hs hp => hostStep_idle hs hp, fun s rest hs hp => hostStep_idle hs hp,
    fun s rest hs hp => hostStep_idle hs hp, fun s rest hs hp => hostStep_idle hs hp,
    ?sendThre, ?sendLow, ?sendHigh, ?sendWrite, ?pollDr, ?pollRaw, ?pollRead⟩
  case sendThre =>
    intro s c hs hp
    refine ⟨_, _, busRead_lsr_next s, lsrRead_reads s, ?_⟩
    rw [moveStep, hostStep_sendWait hs, txProbe_of_thre hp, ← threBit_lsrValue s.nextDraw s]
    simp only [finishSendProbe, threBit_eq_true_iff]
  case sendLow =>
    intro s c lo hi hs hw hp
    refine ⟨_, _, busRead_txcntLo s lo hi hw hp, rfl, ?_⟩
    rw [moveStep, hostStep_sendWait hs, txProbe_of_count8 hw hp]
  case sendHigh =>
    intro s c l lo hi hs hw hp
    refine ⟨_, _, busRead_txcntHi s lo hi hw hp, rfl, ?_⟩
    rw [moveStep, hostStep_sendWaitHi hs, txProbeHi_of_count8 hw hp]
    simp only [finishSendProbe, countReady_eq_true_iff]
  case sendWrite =>
    intro s c hs
    obtain ⟨t, ht⟩ := busWrite_completes 0#5 c s
    exact ⟨t, ht, by rw [moveStep, hostStep_sendWrite hs, ht, andThen_next]⟩
  case pollDr =>
    intro s hs hp
    refine ⟨_, _, busRead_lsr_next s, lsrRead_reads s, ?_⟩
    rw [moveStep, hostStep_pollProbe hs, rxProbe_of_dr hp, ← drBit_lsrValue s.nextDraw s]
    simp only [finishPollProbe, drBit_eq_true_iff]
  case pollRaw =>
    intro s pops empty hs hp
    obtain ⟨v, t, ht, hv⟩ := busRead_offset0_returns s
    refine ⟨v, t, ht, hv, ?_⟩
    rw [moveStep, hostStep_pollProbe hs, rxProbe_of_nonzero hp ht hv]
    simp only [finishPollProbe, bne_iff_ne]
  case pollRead =>
    intro s hs
    obtain ⟨v, t, ht, hv⟩ := busRead_offset0_returns s
    exact ⟨v, t, ht, hv, hostStep_pollRead_of_busRead hs ht hv⟩

/-! ## Reads and writes of offset 0 by the latch -/

/-- With the latch clear and a byte in the queue, offset 0 returns that byte and takes it off if `RX_READ_POPS`. -/
theorem busRead_offset0_head {s : State} {v : Byte} {rest : List Byte} (hl : s.latch = false) (hq : s.rxq = v :: rest) :
    busRead 0#5 s = .next
      (returnByte v { s with rxq := if s.platform.rxReadPops then rest else v :: rest }) := by
  simp [busRead_offset0, hl, execRbrRead, hq]

/-- On a raw-value platform the platform says what a read takes off, and what an empty queue gives. -/
theorem Platform.of_nonzero {p : Platform} {pops : Bool} {empty : Option Byte} (hp : p.probeRx = .nonzero pops empty) :
    p.rxReadPops = pops ∧ p.rxEmptyValue = empty := by
  simp [Platform.rxReadPops, Platform.rxEmptyValue, hp]

/-- Settles O44: the probe is the read of RBR, and so is the read that follows a true one. -/
theorem rawValuePollLimits : Obligations.RawValuePollLimits := by
  refine ⟨fun s pops empty v rest hl hp hq => ?_, fun s pops w hl hp hq hs => ?_⟩
  · have hread := busRead_offset0_head hl hq
    rw [(Platform.of_nonzero hp).1] at hread
    refine ⟨fun hs hv => ?_, fun hs hv => ?_, fun hs => ?_⟩
    · rw [moveStep, hostStep_pollProbe hs, rxProbe_of_nonzero hp hread rfl, bne_iff_ne.mpr hv]
      rfl
    · rw [moveStep, hostStep_pollProbe hs, rxProbe_of_nonzero hp hread rfl, hv]
      rfl
    · rw [moveStep, hostStep_pollRead_of_busRead hs hread rfl]
      rfl
  · have hread : busRead 0#5 s = .next (returnByte w s) := by
      simp [busRead_offset0, hl, execRbrRead, hq, (Platform.of_nonzero hp).2]
    rw [moveStep, hostStep_pollRead_of_busRead hs hread rfl]
    rfl

/-- A legal platform has room for a byte in an empty queue, FIFO on or off. -/
theorem one_le_capTx {s : State} (h : s.platform.wf = true) : 1 ≤ s.capTx := by
  cases hf : s.fifoEn with
  | false => rw [capTx_of_not_fifoEn s hf]
  | true =>
    rw [capTx_of_fifoEn s hf]
    simp only [Platform.wf, Bool.and_eq_true, decide_eq_true_eq] at h
    exact h.1.1

/-- What a true probe has established is room for the byte. -/
theorem RoomForWrite.lt_capTx {s : State} (h : RoomForWrite s) (hw : s.platform.wf = true) : s.txq.length < s.capTx := by
  unfold RoomForWrite at h
  split at h
  · rw [h]; exact one_le_capTx hw
  · simp only [txReadyMin, State.txFree] at h; omega

/-- Settles O45: the invariant gives the room. -/
theorem sendCharNeverOverruns : Obligations.SendCharNeverOverruns := by
  intro s c hc hs hl
  have hroom : RoomForWrite s := by simpa only [SeqFacts, hs] using hc.seq
  have hwrite : busWrite 0#5 c s = .next { s with txq := s.txq ++ [c] } := by
    rw [busWrite_offset0, hl]; exact (thrWriteResult s c).1 (hroom.lt_capTx hc.platform)
  rw [moveStep, hostStep_sendWrite hs, hwrite, andThen_next]

/-- Settles O46: the invariant gives the byte, and a data-ready platform takes it off. -/
theorem pollCharReturnsTheOldestByte : Obligations.PollCharReturnsTheOldestByte := by
  intro s hc hp hs hl
  have hne : s.platform.probeRx = .dr → s.rxq ≠ [] := by simpa only [SeqFacts, hs] using hc.seq
  obtain ⟨v, rest, hq⟩ := List.exists_cons_of_ne_nil (hne hp)
  have hpops : s.platform.rxReadPops = true := by simp [Platform.rxReadPops, hp]
  have hread := busRead_offset0_head hl hq
  rw [hpops] at hread
  exact ⟨v, rest, hq, hostStep_pollRead_of_busRead hs hread rfl⟩

/-- Settles O47: with the latch set offset 0 is DLL. -/
theorem latchSetTurnsCharactersIntoDivisor : Obligations.LatchSetTurnsCharactersIntoDivisor := by
  refine ⟨fun s c hs hl => ?_, fun s hs hl => ?_⟩
  · have hwrite := exec_dllWrite c s
    rw [moveStep, hostStep_sendWrite hs, busWrite_offset0, if_pos hl]
    exact congrArg (andThen · fun t => { t with seq := .idle }) hwrite
  · have hread : busRead 0#5 s = .next (returnByte s.dll s) := by rw [busRead_offset0, hl]; rfl
    exact hostStep_pollRead_of_busRead hs hread rfl

/-! ## The start of an operation -/

/-- Settles O1: a transaction is decoded in the state the step has reached. -/
theorem stepRunsDecodedOperation : Obligations.StepRunsDecodedOperation := by
  intro s t rest hm hs hp
  rw [step, hm, moveStep, hostStep_idle (s := s.afterMove) hs hp]
  rfl

/-- The divisor is written exactly when it is a number of 1 to 65535. -/
theorem divisorOperand_eq_some {frequency baud : Nat} (hb : baud ≠ 0) (h1 : 1 ≤ frequency / (baud * 16))
    (h2 : frequency / (baud * 16) ≤ 65535) :
    divisorOperand frequency baud = some (BitVec.ofNat 16 (frequency / (baud * 16))) := by
  rw [divisorOperand, if_neg hb, initDivisor, if_neg (by omega), if_neg (by omega)]

theorem divisorOperand_eq_none {frequency baud : Nat}
    (h : baud = 0 ∨ frequency / (baud * 16) = 0 ∨ 65535 < frequency / (baud * 16)) :
    divisorOperand frequency baud = none := by
  unfold divisorOperand initDivisor
  obtain h | h | h := h
  · rw [if_pos h]
  · rw [if_pos h, ite_self]
  · rw [if_pos h, ite_self, ite_self]

/-- A divisor that is written is not zero. -/
theorem ne_zero_of_divisorOperand {frequency baud : Nat} {d : BitVec 16} (h : divisorOperand frequency baud = some d) :
    d ≠ 0 := by
  unfold divisorOperand at h
  split at h
  · cases h
  · split at h
    · cases h
    · split at h
      · cases h
      · obtain rfl := Option.some.inj h
        intro h0
        have h0 := congrArg BitVec.toNat h0
        simp at h0
        omega

/-- Settles O49: the two cases of the divisor. -/
theorem initDivisorOperand : Obligations.InitDivisorOperand := by
  refine fun s frequency baud rest hs hp => ⟨fun hb h1 h2 => ?_, fun h => ?_⟩
  · rw [moveStep, hostStep_idle hs hp, startOp, divisorOperand_eq_some hb h1 h2]
  · rw [moveStep, hostStep_idle hs hp, startOp, divisorOperand_eq_none h]
    rfl

/-- Settles O51: each position issues its word, the divisor's bytes written as remainders, and goes on to the next. -/
theorem initStepsInOrder : Obligations.InitStepsInOrder := by
  intro s d k hs
  obtain ⟨t, ht⟩ := everyBusOperationCompletes (decode s.platform s.latch (initWord s.platform d k)) s
  have hmove := moveStep_host_init hs ht
  refine ⟨t, ?_⟩
  cases k with
  | disableInterrupts | setLatch | clearLatch | fifoInit | autoflow => exact ⟨ht, hmove⟩
  | divisorLow => exact ⟨by rw [← divisorLowByte_eq_ofNat]; exact ht, hmove⟩
  | divisorHigh => exact ⟨by rw [← divisorHighByte_eq_ofNat]; exact ht, hmove⟩

end Sys2Proof.Machine
end

section
/-! SUPPORT. The statements of 44_line_agents.md about single moves, and what one step of the machine may do to the marks, the
traces and the two streams of bytes. -/

namespace Sys2Proof.Machine

/-! ## The moves of the line agents -/

/-- `LineEffect s m t`: the move `m` of a line agent leaves `t` when it is made in `s`, enabled or not. -/
inductive LineEffect (s : State) : Move → State → Prop
  /-- the oldest queued byte goes to the shift register -/
  | loaded (b : Byte) (rest : List Byte) (hq : s.txq = b :: rest) (ht : s.tsr = none) :
      LineEffect s .txLoad { s with txq := rest, tsr := some { b := b, ok := s.configured } }
  /-- `TX_LOAD` is not enabled -/
  | notLoaded (h : s.txq = [] ∨ s.tsr ≠ none) : LineEffect s .txLoad s
  /-- the byte in flight goes out -/
  | sent (f : InFlight) (ht : s.tsr = some f) :
      LineEffect s .txDone { s with txLine := s.txLine ++ [f.symbol], tsr := none }
  /-- `TX_DONE` is not enabled -/
  | notSent (ht : s.tsr = none) : LineEffect s .txDone s
  /-- the byte that arrived is stored -/
  | stored (b : Byte) (hroom : s.rxq.length < s.capRx) : LineEffect s (.rxArrive b)
      { s with rxLine := s.rxLine ++ [b], rxq := s.rxq ++ [receivedByte b s],
               draws := if s.configured then s.draws else s.draws + 1 }
  /-- the byte that arrived is lost -/
  | lost (b : Byte) (hfull : s.capRx ≤ s.rxq.length) : LineEffect s (.rxArrive b)
      { s with rxLine := s.rxLine ++ [b], rxOverrun := true, rxLost := s.rxLost ++ [b],
               draws := if s.configured then s.draws else s.draws + 1 }

/-- Every move of a line agent has one of the effects. -/
theorem exists_lineEffect {m : Move} (hm : m ≠ .host) (s : State) : ∃ t, moveStep m s = .next t ∧ LineEffect s m t := by
  cases m with
  | host => exact absurd rfl hm
  | txLoad =>
    obtain ⟨b, rest, hq, ht, e⟩ | ⟨h, e⟩ := txLoad_cases s
    · exact ⟨_, congrArg Host.Outcome.next e, .loaded b rest hq ht⟩
    · exact ⟨_, congrArg Host.Outcome.next e, .notLoaded h⟩
  | txDone =>
    obtain ⟨f, ht, e⟩ | ⟨ht, e⟩ := txDone_cases s
    · exact ⟨_, congrArg Host.Outcome.next e, .sent f ht⟩
    · exact ⟨_, congrArg Host.Outcome.next e, .notSent ht⟩
  | rxArrive b =>
    obtain ⟨h, e⟩ | ⟨h, e⟩ := rxArrive_cases b s
    · exact ⟨_, congrArg Host.Outcome.next e, .stored b h⟩
    · exact ⟨_, congrArg Host.Outcome.next e, .lost b h⟩

/-- What a move of a line agent left, it left by one of the effects. -/
theorem lineEffect_of_moveStep {m : Move} {s t : State} (hm : m ≠ .host) (h : moveStep m s = .next t) :
    LineEffect s m t := by
  obtain ⟨u, hu, he⟩ := exists_lineEffect hm s
  obtain rfl : u = t := Host.Outcome.next.inj (hu.symm.trans h)
  exact he

/-- Settles O31: the two cases of each transmitter step, with `configured` written out. -/
theorem transmitterSteps : Obligations.TransmitterSteps := by
  have hconf (s : State) :
      s.configured = decide (s.lcr = 0x03 ∧ s.mcr = 0x20 ∧ (s.dlh ++ s.dll : BitVec 16) ≠ 0) := by
    rw [Bool.eq_iff_iff]
    simp [State.configured, State.divisor, and_assoc]
  refine ⟨fun s b rest hq ht => ?_, fun s h => ?_, fun s b ok ht => ?_, fun s ht => ?_⟩
  · rw [← hconf, moveStep, txLoad, hq, ht]
  · obtain ⟨b, rest, hq, ht, -⟩ | ⟨-, e⟩ := txLoad_cases s
    · simp [hq, ht] at h
    · exact congrArg Host.Outcome.next e
  · simp only [moveStep, txDone, ht, InFlight.symbol]
  · simp only [moveStep, txDone, ht]

/-- Settles O32: room or none, and with room the byte or the draw. -/
theorem receiverStep : Obligations.ReceiverStep := by
  intro s b
  obtain ⟨h, e⟩ | ⟨h, e⟩ := rxArrive_cases b s
  · have hfull : ¬ s.capRx ≤ s.rxq.length := Nat.not_le.mpr h
    refine ⟨fun hc _ => ?_, fun hc _ => ?_, fun h' => absurd h' hfull⟩
    · rw [moveStep, e, receivedByte, if_pos hc, if_pos hc]
    · rw [moveStep, e, receivedByte, hc]; rfl
  · have hroom : ¬ s.rxq.length < s.capRx := Nat.not_lt.mpr h
    exact ⟨fun _ h' => absurd h' hroom, fun _ h' => absurd h' hroom, fun _ => congrArg Host.Outcome.next e⟩

/-- Settles O33: the line agents move queues, the shift register, the traces, the receive fault and the draw counter. -/
theorem lineAgentsReachNoRegister : Obligations.LineAgentsReachNoRegister := by
  intro m s t hm h
  cases lineEffect_of_moveStep hm h <;> simp

/-- The symbol the byte in flight leaves is the last of the line after `TX_DONE`. -/
theorem txLine_of_txDone {t u : State} {f : InFlight} (hu : moveStep .txDone t = .next u) (ht : t.tsr = some f) :
    u.txLine = t.txLine ++ [f.symbol] := by
  cases lineEffect_of_moveStep (m := .txDone) nofun hu with
  | sent f' ht' => rw [Option.some.inj (ht.symm.trans ht')]
  | notSent ht' => simp [ht] at ht'

/-- After a configuration write the byte in flight comes out as itself exactly if the value is the one stored. -/
theorem txLine_of_txDone_of_config {s t u : State} {b old d : Byte} (hs : s.tsr = some { b := b, ok := true })
    (hu : moveStep .txDone t = .next u) (hline : t.txLine = s.txLine)
    (ht : t.tsr = if d = old then s.tsr else s.tsr.map (fun f => { f with ok := false })) :
    u.txLine = s.txLine ++ [if d = old then .byte b else .garbled] := by
  by_cases hd : d = old
  · rw [if_pos hd, hs] at ht
    rw [txLine_of_txDone hu ht, hline, if_pos hd]; rfl
  · rw [if_neg hd, hs] at ht
    rw [txLine_of_txDone hu ht, hline, if_neg hd]; rfl

/-- Settles O34: four configuration writes damage the frame on a changed value; the two others leave the shift register. -/
theorem reconfigurationGarblesTheByteInFlight : Obligations.ReconfigurationGarblesTheByteInFlight := by
  intro s t u b d hs hu
  have hkept (hline : t.txLine = s.txLine) (ht : t.tsr = s.tsr) : u.txLine = s.txLine ++ [.byte b] := by
    rw [txLine_of_txDone hu (ht.trans hs), hline]; rfl
  refine ⟨fun h => ?_, fun h => ?_, fun h => ?_, fun h => ?_, fun h => ?_, fun h => ?_⟩
  · obtain rfl := Host.Outcome.next.inj ((exec_lcrWrite d s).symm.trans h)
    exact txLine_of_txDone_of_config hs hu rfl rfl
  · obtain rfl := Host.Outcome.next.inj ((exec_mcrWrite d s).symm.trans h)
    exact txLine_of_txDone_of_config hs hu rfl rfl
  · obtain rfl := Host.Outcome.next.inj ((exec_dllWrite d s).symm.trans h)
    exact txLine_of_txDone_of_config hs hu rfl rfl
  · obtain rfl := Host.Outcome.next.inj ((exec_dlhWrite d s).symm.trans h)
    exact txLine_of_txDone_of_config hs hu rfl rfl
  · obtain rfl := Host.Outcome.next.inj ((rfl : exec (.ierWrite d) s = .next { s with ier := d }).symm.trans h)
    exact hkept rfl rfl
  · obtain ⟨-, e⟩ | ⟨-, e⟩ := execFcrWrite_cases d s
    all_goals
      obtain rfl := Host.Outcome.next.inj (e.symm.trans h)
      exact hkept rfl rfl

/-- Settles O54: an ended run has nothing to issue, to load or to send, and an arrival touches none of the three. -/
theorem endedRunStaysEnded : Obligations.EndedRunStaysEnded := by
  intro s h
  have hended := h
  simp only [State.runEnded, Bool.and_eq_true, decide_eq_true_eq, List.isEmpty_iff, Option.isNone_iff_eq_none] at h
  obtain ⟨⟨⟨hs, hp⟩, hq⟩, ht⟩ := h
  refine ⟨hostStep_done hs hp, transmitterSteps.2.1 s (.inl hq), transmitterSteps.2.2.2 s ht, fun b => ?_⟩
  obtain ⟨t, hmove, he⟩ := exists_lineEffect (m := .rxArrive b) nofun s
  refine ⟨t, hmove, ?_⟩
  cases he <;> exact hended

/-! ## Where a step stops -/

/-- A bus operation and the host's own update after it complete. -/
theorem andThen_issue_completes (w : TWord) (f : State → State) (s : State) : ∃ t, andThen (issue w s) f = .next t := by
  obtain ⟨u, hu⟩ := everyBusOperationCompletes (decode s.platform s.latch w) s
  exact ⟨f u, by rw [issue, hu, andThen_next]⟩

theorem txProbe_completes (keep : Byte → SeqState) (finish : Bool → State → State) (s : State) :
    ∃ t, txProbe keep finish s = .next t := by
  unfold txProbe
  split <;> exact andThen_issue_completes _ _ s

theorem txProbeHi_completes (l : Byte) (finish : Bool → State → State) (s : State) :
    ∃ t, txProbeHi l finish s = .next t := by
  unfold txProbeHi
  split <;> exact andThen_issue_completes _ _ s

theorem rxProbe_completes (finish : Bool → State → State) (s : State) : ∃ t, rxProbe finish s = .next t := by
  unfold rxProbe
  split <;> exact andThen_issue_completes _ _ s

/-- The operation is a raw access wholly outside the window. -/
def HostOp.Outside (p : Platform) (op : HostOp) : Prop :=
  ∃ addr n, AccessOutside p addr n.bytes ∧ (op = .memRead addr n ∨ ∃ v, op = .memWrite addr n v)

theorem memRead_of_outside {s : State} {addr : Nat} {n : Width} (h : AccessOutside s.platform addr n.bytes) :
    memRead addr n s = .fault .outsideBlock := by
  have hw := (touchesWindow_eq_false_iff s.platform addr n.bytes).mpr h
  simp only [memRead, hw, Bool.false_eq_true, if_false]

theorem memWrite_of_outside {s : State} {addr : Nat} {n : Width} (v : BitVec 64)
    (h : AccessOutside s.platform addr n.bytes) : memWrite addr n v s = .fault .outsideBlock := by
  have hw := (touchesWindow_eq_false_iff s.platform addr n.bytes).mpr h
  simp only [memWrite, hw, Bool.false_eq_true, if_false]

/-- An access that is not outside touches the window. -/
theorem touchesWindow_of_not_outside {p : Platform} {addr n : Nat} (h : ¬ AccessOutside p addr n) :
    touchesWindow p addr n = true :=
  Bool.not_eq_false _ ▸ fun hf => h ((touchesWindow_eq_false_iff p addr n).mp hf)

/-- From `IDLE` every operation completes but a raw access outside the window. -/
theorem startOp_completes {s : State} {op : HostOp} (h : ¬ op.Outside s.platform) : ∃ t, startOp op s = .next t := by
  cases op with
  | transaction t => exact everyBusOperationCompletes _ s
  | memRead addr n =>
    have hw := touchesWindow_of_not_outside fun ho => h ⟨addr, n, ho, .inl rfl⟩
    cases n with
    | byte =>
      obtain ⟨t, ht⟩ := everyBusOperationCompletes _ s
      exact ⟨t, (if_pos hw).trans ht⟩
    | half | word | double => exact ⟨_, memRead_wide nofun hw⟩
  | memWrite addr n v =>
    have hw := touchesWindow_of_not_outside fun ho => h ⟨addr, n, ho, .inr ⟨v, rfl⟩⟩
    cases n with
    | byte =>
      obtain ⟨t, ht⟩ := everyBusOperationCompletes _ s
      exact ⟨t, (if_pos hw).trans ht⟩
    | half | word | double => exact ⟨_, memWrite_wide v nofun hw⟩
  | txReady | rxReady | sendChar | pollChar => exact ⟨_, rfl⟩
  | uartInit frequency baud =>
    rw [startOp]
    split <;> exact ⟨_, rfl⟩

/-- Every step of the host completes but the issue of such an access. -/
theorem hostStep_completes {s : State}
    (h : ∀ op rest, s.seq = .idle → s.program = op :: rest → ¬ op.Outside s.platform) : ∃ t, hostStep s = .next t := by
  cases hs : s.seq with
  | idle =>
    cases hp : s.program with
    | nil => exact ⟨s, hostStep_done hs hp⟩
    | cons op rest =>
      rw [hostStep_idle hs hp]
      exact startOp_completes (s := { s with program := rest }) (h op rest hs hp)
  | txReady => rw [hostStep_txReady hs]; exact txProbe_completes _ _ s
  | txReadyHi l => rw [hostStep_txReadyHi hs]; exact txProbeHi_completes _ _ s
  | rxReady => rw [hostStep_rxReady hs]; exact rxProbe_completes _ s
  | sendWait c => rw [hostStep_sendWait hs]; exact txProbe_completes _ _ s
  | sendWaitHi c l => rw [hostStep_sendWaitHi hs]; exact txProbeHi_completes _ _ s
  | sendWrite c => rw [hostStep_sendWrite hs]; exact andThen_issue_completes _ _ s
  | pollProbe => rw [hostStep_pollProbe hs]; exact rxProbe_completes _ s
  | pollRead => rw [hostStep_pollRead hs]; exact andThen_issue_completes _ _ s
  | init k d => rw [hostStep_init hs]; exact andThen_issue_completes _ _ s

/-- Settles O24: the access outside the window stops, and every other move completes. -/
theorem stepStopsOnlyOutsideTheBlock : Obligations.StepStopsOnlyOutsideTheBlock := by
  refine fun s => ⟨fun h => ?stops, fun h => ?completes⟩
  case stops =>
    obtain ⟨hm, hs, addr, n, rest, hout, hp | ⟨v, hp⟩⟩ := h
    · rw [step, hm, moveStep, hostStep_idle (s := s.afterMove) hs hp]
      exact memRead_of_outside hout
    · rw [step, hm, moveStep, hostStep_idle (s := s.afterMove) hs hp]
      exact memWrite_of_outside v hout
  case completes =>
    by_cases hm : s.nextMove = .host
    · rw [step, hm]
      refine hostStep_completes (s := s.afterMove) fun op rest hs hp hout => h ⟨hm, hs, ?_⟩
      obtain ⟨addr, n, hout, rfl | ⟨v, rfl⟩⟩ := hout
      · exact ⟨addr, n, rest, hout, .inl hp⟩
      · exact ⟨addr, n, rest, hout, .inr ⟨v, hp⟩⟩
    · obtain ⟨t, ht, -⟩ := exists_lineEffect hm s.afterMove
      exact ⟨t, ht⟩

/-! ## What a step may do -/

/-- A step is a step of the host or has an effect of the line agent that moves. -/
theorem step_cases {s t : State} (h : step s = .next t) :
    (s.nextMove = .host ∧ hostStep s.afterMove = .next t) ∨
    (s.nextMove ≠ .host ∧ LineEffect s.afterMove s.nextMove t) := by
  by_cases hm : s.nextMove = .host
  · exact .inl ⟨hm, by rwa [step, hm] at h⟩
  · exact .inr ⟨hm, lineEffect_of_moveStep hm h⟩

/-- The marks stick, the traces and the records grow at their ends, and the platform stays. -/
def Grows (s t : State) : Prop :=
  (s.txOverrun = true → t.txOverrun = true) ∧ (s.rxOverrun = true → t.rxOverrun = true) ∧
    (∀ r, s.refused = some r → t.refused = some r) ∧
    s.txLine <+: t.txLine ∧ s.rxLine <+: t.rxLine ∧ s.reads <+: t.reads ∧ s.results <+: t.results ∧
    s.txLost <+: t.txLost ∧ s.rxLost <+: t.rxLost ∧ t.platform = s.platform

theorem grows_of_exec {i : Instr} {s t : State} (h : exec i s = .next t) : Grows s t := by
  cases effect_of_exec h <;> simp +contextual [Grows]

theorem grows_of_lineEffect {m : Move} {s t : State} (h : LineEffect s m t) : Grows s t := by
  cases h <;> simp [Grows]

theorem grows_of_oneOperation {s t : State} (h : OneOperation s t) : Grows s t := by
  obtain ⟨i, u, q, res, hu, rfl⟩ := h
  obtain ⟨htx, hrx, href, hline, hrline, hreads, hres, hlost, hrlost, hp⟩ := grows_of_exec hu
  exact ⟨htx, hrx, href, hline, hrline, hreads, hres.trans (List.prefix_append _ _), hlost, hrlost, hp⟩

theorem grows_of_hostStep {s t : State} (h : hostStep s = .next t) : Grows s t := by
  obtain ⟨prog, ho⟩ | ⟨q, prog, r, bytes, n, rfl⟩ := hostStep_shape h
  · exact (grows_of_oneOperation ho :)
  · simp +contextual [Grows]

/-- Settles O26: operations, the host's own bookkeeping and the line agents all let them grow. -/
theorem marksStickAndTracesGrow : Obligations.MarksStickAndTracesGrow := by
  intro s t h
  obtain ⟨-, hh⟩ | ⟨-, he⟩ := step_cases h
  · exact (grows_of_hostStep hh :)
  · exact (grows_of_lineEffect he :)

/-- No step of the host touches the receive mark. -/
theorem rxOverrun_of_hostStep {s t : State} (h : hostStep s = .next t) : t.rxOverrun = s.rxOverrun := by
  obtain ⟨prog, i, u, q, res, hu, rfl⟩ | ⟨q, prog, r, bytes, n, rfl⟩ := hostStep_shape h
  · obtain ⟨-, hrx, -⟩ := oneOperationRaisesAtMostOneMark i _ u hu
    exact hrx
  · rfl

/-- Settles O37: only an arrival into a full queue raises the mark. -/
theorem peerHonouringRtsPreventsOverrun : Obligations.PeerHonouringRtsPreventsOverrun := by
  intro s t hpeer h
  obtain ⟨-, hh⟩ | ⟨-, he⟩ := step_cases h
  · exact (rxOverrun_of_hostStep hh :)
  · generalize s.nextMove = m at hpeer he
    cases he with
    | lost b hfull =>
      have hroom : s.rxq.length < s.capRx := by simpa [peerHonoursRts, Move.isArrival] using hpeer
      exact absurd hroom (Nat.not_lt.mpr hfull)
    | loaded | notLoaded | sent | notSent | stored => rfl

/-! ## The bytes on their way out -/

/-- The outgoing stream of `t` is that of `s` with `added` at its end, each symbol kept or garbled in its place. -/
def StreamKept (s t : State) (added : List Byte) : Prop :=
  List.Forall₂ Symbol.keptOrGarbled (outStream s ++ added.map Symbol.byte) (outStream t)

theorem forall₂_keptOrGarbled_refl (l : List Symbol) : List.Forall₂ Symbol.keptOrGarbled l l :=
  List.forall₂_same.mpr fun _ _ => .inl rfl

theorem streamKept_of_eq {s t : State} {added : List Byte} (h : outStream t = outStream s ++ added.map Symbol.byte) :
    StreamKept s t added := by
  rw [StreamKept, h]
  exact forall₂_keptOrGarbled_refl _

/-- A frame with its flag lowered leaves `garbled`; the rest of the stream stays. -/
theorem streamKept_of_damage {s t : State} {old d : Byte} (hline : t.txLine = s.txLine) (hq : t.txq = s.txq)
    (ht : t.tsr = if d = old then s.tsr else s.tsr.map (fun f => { f with ok := false })) : StreamKept s t [] := by
  have hframe : List.Forall₂ Symbol.keptOrGarbled (s.tsr.toList.map InFlight.symbol) (t.tsr.toList.map InFlight.symbol) := by
    rw [ht]
    split
    · exact forall₂_keptOrGarbled_refl _
    · cases s.tsr with
      | none => exact .nil
      | some f => exact .cons (.inr rfl) .nil
  rw [StreamKept, List.map_nil, List.append_nil, outStream, outStream, hline, hq]
  exact List.rel_append (List.rel_append (forall₂_keptOrGarbled_refl _) hframe) (forall₂_keptOrGarbled_refl _)

/-- A bus operation adds at most one byte to the stream and garbles at most the byte in flight, or is the FIFO clear. -/
theorem streamKept_of_exec {i : Instr} {s t : State} (h : exec i s = .next t) :
    (∃ added : List Byte, added.length ≤ 1 ∧ StreamKept s t added) ∨ i = .fcrWrite s.platform.fcrInit := by
  have hsame {t : State} (h : outStream t = outStream s) : ∃ added : List Byte, added.length ≤ 1 ∧ StreamKept s t added :=
    ⟨[], Nat.zero_le 1, streamKept_of_eq (by rw [h, List.map_nil, List.append_nil])⟩
  cases effect_of_exec h with
  | returned | head | emptyDraw | status | refusedRead | refusedWrite | overrun | ier => exact .inl (hsame rfl)
  | queued d hroom => exact .inl ⟨[d], Nat.le_refl 1, streamKept_of_eq (by simp [outStream])⟩
  | cleared => exact .inr rfl
  | lcr | mcr | dll | dlh =>
    exact .inl ⟨[], Nat.zero_le 1, streamKept_of_damage (damageIfChanged_txLine _ _ s) (damageIfChanged_txq _ _ s)
      (damageIfChanged_tsr _ _ s)⟩

/-- A line agent passes the oldest byte on, garbled where the block is not configured, and adds none. -/
theorem streamKept_of_lineEffect {m : Move} {s t : State} (h : LineEffect s m t) : StreamKept s t [] := by
  have hsame : StreamKept s s [] := streamKept_of_eq (List.append_nil _).symm
  cases h with
  | loaded b rest hq ht =>
    simp only [StreamKept, outStream, hq, ht, List.map_nil, List.append_nil, Option.toList, List.append_assoc]
    refine List.rel_append (forall₂_keptOrGarbled_refl _) (.cons ?_ (forall₂_keptOrGarbled_refl _))
    unfold InFlight.symbol Symbol.keptOrGarbled
    split
    · exact .inl rfl
    · exact .inr rfl
  | sent f ht => exact streamKept_of_eq (by simp [outStream, ht])
  | notLoaded | notSent | stored | lost => exact hsame

/-- The FIFO clear of the host, seen from the state before the step, for both streams. -/
theorem fifoClear_of_step {s u : State} {prog : List HostOp} (q : SeqState) (res : List Result)
    (hu : exec (.fcrWrite s.platform.fcrInit) { s.afterMove with program := prog } = .next u) :
    exec (.fcrWrite s.platform.fcrInit) { s with program := prog, schedule := s.schedule.tail } =
      .next { ({ u with seq := q, results := res } : State) with seq := s.seq, results := s.results } := by
  obtain ⟨-, hseq, hres, -⟩ := exec_keeps_host hu
  have hback : ({ u with seq := s.seq, results := s.results } : State) = u := by
    rw [show s.seq = u.seq from hseq.symm, show s.results = u.results from hres.symm]
  exact hu.trans (congrArg Host.Outcome.next hback.symm)

/-- Settles O35: the host's operation, its bookkeeping, and the line agents. -/
theorem transmitStreamKeepsItsOrder : Obligations.TransmitStreamKeepsItsOrder := by
  intro s t h
  obtain ⟨hm, hh⟩ | ⟨-, he⟩ := step_cases h
  · obtain ⟨prog, i, u, q, res, hu, rfl⟩ | ⟨q, prog, r, bytes, n, rfl⟩ := hostStep_shape hh
    · obtain ⟨added, hlen, hkept⟩ | rfl := streamKept_of_exec hu
      · exact .inl ⟨added, hlen, fun _ => hm, hkept⟩
      · exact .inr ⟨hm, prog, fifoClear_of_step q _ hu⟩
    · exact .inl ⟨[], Nat.zero_le 1, fun _ => hm, streamKept_of_eq (s := s) (List.append_nil _).symm⟩
  · exact .inl ⟨[], Nat.zero_le 1, fun hne => absurd rfl hne, (streamKept_of_lineEffect he :)⟩

/-! ## The bytes on their way in -/

/-- A bus operation leaves the receive queue, or gives its head to the host, or is the FIFO clear. -/
theorem rxq_of_exec {i : Instr} {s t : State} (h : exec i s = .next t) :
    t.rxq = s.rxq ∨ (∃ v, s.platform.rxReadPops = true ∧ s.rxq = v :: t.rxq ∧ t.reads = s.reads ++ [v]) ∨
      i = .fcrWrite s.platform.fcrInit := by
  cases effect_of_exec h with
  | head v rest hq =>
    cases hp : s.platform.rxReadPops with
    | true => exact .inr (.inl ⟨v, rfl, hq, rfl⟩)
    | false => exact .inl hq.symm
  | cleared => exact .inr (.inr rfl)
  | lcr | mcr | dll | dlh => exact .inl (damageIfChanged_rxq _ _ s)
  | returned | emptyDraw | status | refusedRead | refusedWrite | queued | overrun | ier => exact .inl rfl

/-- Settles O36: the host's operation, its bookkeeping, and the line agents, of which one stores the byte that arrived. -/
theorem receiveQueueKeepsItsOrder : Obligations.ReceiveQueueKeepsItsOrder := by
  intro s t h
  obtain ⟨hm, hh⟩ | ⟨-, he⟩ := step_cases h
  · obtain ⟨prog, i, u, q, res, hu, rfl⟩ | ⟨q, prog, r, bytes, n, rfl⟩ := hostStep_shape hh
    · obtain hrx | ⟨v, hpops, hrx, hreads⟩ | rfl := rxq_of_exec hu
      · exact .inl hrx
      · exact .inr (.inr (.inl ⟨v, hm, hpops, hrx, hreads⟩))
      · exact .inr (.inr (.inr ⟨hm, prog, fifoClear_of_step q _ hu⟩))
    · exact .inl rfl
  · generalize s.nextMove = m at he
    cases he with
    | stored b hroom => exact .inr (.inl ⟨b, rfl, rfl, rfl⟩)
    | loaded | notLoaded | sent | notSent | lost => exact .inl rfl

/-! ## Reset -/

/-- Settles O28: the fields of the reset state, one by one. -/
theorem resetState : Obligations.ResetState :=
  ⟨fun _ _ => ⟨rfl, rfl, rfl, rfl, rfl, rfl, rfl, rfl, rfl, rfl, rfl, rfl, rfl, rfl, rfl, rfl, rfl⟩,
    ⟨Platform.reference, ResetDraws.reference, rfl⟩, by decide⟩

end Sys2Proof.Machine
end

section
/-! SUPPORT. The invariant: it holds after reset, and every move keeps it. The parts are the capacities of the queues, which
follow from what operations and line agents can do, and the facts of the host's position, position by position. -/

namespace Sys2Proof.Machine

/-! ## Reset -/

/-- The invariant of a reset state: its queues are empty and the host is idle. -/
theorem consistent_resetWith {p : Platform} (d : ResetDraws) (hw : p.wf = true) (hd : p.txDepth < 65536) :
    Consistent (State.resetWith p d) :=
  ⟨hw, hd, ⟨Nat.zero_le _, Nat.zero_le _⟩, trivial⟩

/-- Settles O29: the fixed reset state is one of them. -/
theorem resetMeetsTheInvariant : Obligations.ResetMeetsTheInvariant :=
  ⟨fun _ d hw hd => consistent_resetWith d hw hd, consistent_resetWith _ (by decide) (by decide)⟩

/-! ## The capacities of the queues -/

/-- An operation keeps the queues within their capacities: a byte is queued only with room, and the clear, which may turn
the FIFO on, empties them. -/
theorem QueuesFit.exec {i : Instr} {s t : State} (hf : QueuesFit s) (h : exec i s = .next t) : QueuesFit t := by
  obtain ⟨htx, hrx⟩ := hf
  cases effect_of_exec h with
  | returned | emptyDraw | status | refusedRead | refusedWrite | overrun | ier => exact ⟨htx, hrx⟩
  | head v rest hq =>
    have hrest : rest.length ≤ s.capRx := by rw [hq, List.length_cons] at hrx; omega
    cases hp : s.platform.rxReadPops with
    | true => exact ⟨htx, hrest⟩
    | false => exact ⟨htx, hq ▸ hrx⟩
  | queued d hroom => exact ⟨by rw [List.length_append]; exact hroom, hrx⟩
  | cleared => exact ⟨Nat.zero_le _, Nat.zero_le _⟩
  | lcr | mcr | dll | dlh => rw [damageIfChanged_eq]; exact ⟨htx, hrx⟩

theorem QueuesFit.lineEffect {m : Move} {s t : State} (hf : QueuesFit s) (h : LineEffect s m t) : QueuesFit t := by
  obtain ⟨htx, hrx⟩ := hf
  cases h with
  | loaded b rest hq ht => exact ⟨by rw [hq, List.length_cons] at htx; exact Nat.le_of_succ_le htx, hrx⟩
  | stored b hroom => exact ⟨htx, by rw [List.length_append]; exact hroom⟩
  | notLoaded | sent | notSent | lost => exact ⟨htx, hrx⟩

theorem QueuesFit.hostStep {s t : State} (hf : QueuesFit s) (h : hostStep s = .next t) : QueuesFit t := by
  obtain ⟨prog, i, u, q, res, hu, rfl⟩ | ⟨q, prog, r, bytes, n, rfl⟩ := hostStep_shape h
  · exact (QueuesFit.exec (s := { s with program := prog }) hf hu :)
  · exact hf

theorem platform_of_hostStep {s t : State} (h : hostStep s = .next t) : t.platform = s.platform := by
  obtain ⟨-, -, -, -, -, -, -, -, -, hp⟩ := grows_of_hostStep h
  exact hp

/-! ## The facts of the host's position under the line agents -/

/-- The fields that the facts of the host's position speak of, and what a line agent makes of them: registers stay, the
transmit queue loses at most its head, the receive queue gains at most a byte. -/
structure LineFrame (s t : State) : Prop where
  platform : t.platform = s.platform
  seq : t.seq = s.seq
  fcr : t.fcr = s.fcr
  fifoEn : t.fifoEn = s.fifoEn
  lcr : t.lcr = s.lcr
  dll : t.dll = s.dll
  dlh : t.dlh = s.dlh
  txq : t.txq <:+ s.txq
  rxq : s.rxq <+: t.rxq

theorem LineEffect.frame {m : Move} {s t : State} (h : LineEffect s m t) : LineFrame s t := by
  cases h with
  | loaded b rest hq ht => exact ⟨rfl, rfl, rfl, rfl, rfl, rfl, rfl, by rw [hq]; exact List.suffix_cons b rest, List.prefix_rfl⟩
  | stored b hroom => exact ⟨rfl, rfl, rfl, rfl, rfl, rfl, rfl, List.suffix_rfl, List.prefix_append _ _⟩
  | notLoaded | sent | notSent | lost => exact ⟨rfl, rfl, rfl, rfl, rfl, rfl, rfl, List.suffix_rfl, List.prefix_rfl⟩

theorem LineFrame.capTx {s t : State} (h : LineFrame s t) : t.capTx = s.capTx := by
  simp only [State.capTx, h.fifoEn, h.platform]

/-- The free space only grows. -/
theorem LineFrame.txFree_le {s t : State} (h : LineFrame s t) : s.txFree ≤ t.txFree := by
  have := h.txq.length_le
  simp only [State.txFree, h.capTx]
  omega

theorem LineFrame.txq_eq_nil {s t : State} (h : LineFrame s t) (hq : s.txq = []) : t.txq = [] :=
  List.suffix_nil.mp (hq ▸ h.txq)

theorem LineFrame.lowByte {s t : State} (h : LineFrame s t) {l : Byte} (hl : LowByteOfEarlierSpace l s) :
    LowByteOfEarlierSpace l t := by
  obtain ⟨n, hn, hlt, e⟩ := hl
  exact ⟨n, hn.trans h.txFree_le, hlt, e⟩

theorem LineFrame.roomForWrite {s t : State} (h : LineFrame s t) (hr : RoomForWrite s) : RoomForWrite t := by
  unfold RoomForWrite at hr ⊢
  rw [h.platform]
  split at hr
  · exact h.txq_eq_nil hr
  · exact hr.trans h.txFree_le

theorem LineFrame.initProgress {s t : State} (h : LineFrame s t) {k : InitStep} {d : BitVec 16} (hp : InitProgress k d s) :
    InitProgress k d t := by
  cases k with
  | disableInterrupts | setLatch => trivial
  | divisorLow | divisorHigh | clearLatch | fifoInit => simpa only [InitProgress, h.lcr, h.dll, h.dlh] using hp
  | autoflow =>
    obtain ⟨hlcr, hdll, hdlh, hfcr, hen, hq⟩ := hp
    exact ⟨h.lcr.trans hlcr, h.dll.trans hdll, h.dlh.trans hdlh, by rw [h.fcr, h.platform, hfcr], h.fifoEn.trans hen,
      h.txq_eq_nil hq⟩

/-- The facts of the host's position survive what the line agents do. -/
theorem LineFrame.seqFacts {s t : State} (h : LineFrame s t) (hf : SeqFacts s) : SeqFacts t := by
  unfold SeqFacts at hf ⊢
  rw [h.seq]
  cases hs : s.seq <;> rw [hs] at hf
  case txReadyHi l => exact h.lowByte hf
  case sendWaitHi c l => exact h.lowByte hf
  case sendWrite c => exact h.roomForWrite hf
  case pollRead => exact fun hp => h.rxq.ne_nil (hf (h.platform ▸ hp))
  case init k d => exact ⟨hf.1, h.initProgress hf.2⟩
  all_goals trivial

/-! ## The facts of the position a host move reaches -/

theorem seqFacts_of_idle {s : State} (h : s.seq = .idle) : SeqFacts s := by
  rw [SeqFacts, h]
  trivial

/-- The low byte just read is that of the space now. -/
theorem lowByteOfEarlierSpace_txcnt {s : State} (h : s.txFree < 65536) :
    LowByteOfEarlierSpace (s.txcnt.extractLsb' 0 8) s :=
  ⟨s.txFree, Nat.le_refl _, h, txcnt_low s h⟩

/-- An empty queue is room on a status-bit platform. -/
theorem roomForWrite_of_thre {s : State} (hp : s.platform.probeTx = .thre) (h : s.txq.isEmpty = true) : RoomForWrite s := by
  rw [RoomForWrite, hp]
  exact List.isEmpty_iff.mp h

/-- A count of 8 or more is room on a ready-count platform. -/
theorem roomForWrite_of_count8 {s : State} {lo hi : Offset} (hp : s.platform.probeTx = .count8 lo hi)
    (h : 8 ≤ s.txFree) : RoomForWrite s := by
  rw [RoomForWrite, hp]
  exact h

theorem seqFacts_finishSendProbe {c : Byte} {ready : Bool} {u : State} (h : ready = true → RoomForWrite u) :
    SeqFacts (finishSendProbe c ready u) := by
  cases ready with
  | true => exact (h rfl :)
  | false => trivial

theorem seqFacts_finishPollProbe {ready : Bool} {u : State}
    (h : ready = true → u.platform.probeRx = .dr → u.rxq ≠ []) : SeqFacts (finishPollProbe ready u) := by
  cases ready with
  | true => exact (h rfl :)
  | false => exact seqFacts_of_idle rfl

/-- What a receive probe answered: the status bit, or, on a raw-value platform, whatever the read gave. -/
theorem rxProbe_eq_next {finish : Bool → State → State} {s t : State} (h : rxProbe finish s = .next t) :
    (s.platform.probeRx = .dr ∧ t = finish (!s.rxq.isEmpty) (lsrRead s)) ∨
    ∃ ready u, s.platform.probeRx ≠ .dr ∧ busRead 0#5 s = .next u ∧ t = finish ready u := by
  cases hp : s.platform.probeRx with
  | dr =>
    rw [rxProbe_of_dr hp] at h
    exact .inl ⟨rfl, (Host.Outcome.next.inj h).symm⟩
  | nonzero pops empty =>
    obtain ⟨v, u, hu, hv⟩ := busRead_offset0_returns s
    rw [rxProbe_of_nonzero hp hu hv] at h
    exact .inr ⟨_, u, nofun, hu, (Host.Outcome.next.inj h).symm⟩

/-- From `IDLE` the host stays there or takes the first position of a composite; a divisor is not zero. -/
theorem seqFacts_of_startOp {op : HostOp} {s t : State} (hs : s.seq = .idle) (h : startOp op s = .next t) :
    SeqFacts t := by
  have hissue {w : TWord} (h : issue w s = .next t) : SeqFacts t := by
    obtain ⟨-, hseq, -⟩ := exec_keeps_host h
    exact seqFacts_of_idle (hseq.trans hs)
  have hdraws (n : Nat) (h : returnDraws n (refuse .refWidth s) = t) : SeqFacts t := by
    obtain ⟨bytes, -, e⟩ := returnDraws_eq n (refuse .refWidth s)
    rw [e] at h
    exact seqFacts_of_idle (h ▸ hs)
  cases op with
  | transaction w => exact hissue h
  | memRead addr n =>
    simp only [startOp, memRead] at h
    split at h
    · cases n with
      | byte => exact hissue h
      | half | word | double => exact hdraws _ (Host.Outcome.next.inj h)
    · cases h
  | memWrite addr n v =>
    simp only [startOp, memWrite] at h
    split at h
    · cases n with
      | byte => exact hissue h
      | half | word | double => exact hdraws 0 (Host.Outcome.next.inj h)
    · cases h
  | txReady | rxReady | sendChar | pollChar => obtain rfl := Host.Outcome.next.inj h; trivial
  | uartInit frequency baud =>
    rw [startOp] at h
    split at h
    case h_1 d hd =>
      obtain rfl := Host.Outcome.next.inj h
      exact ⟨ne_zero_of_divisorOperand hd, trivial⟩
    case h_2 =>
      obtain rfl := Host.Outcome.next.inj h
      exact seqFacts_of_idle hs

/-! ## The initialisation -/

/-- What a configuration write of `d` over `old` leaves in the shift register. -/
def damagedTsr (old d : Byte) (s : State) : Option InFlight :=
  if d = old then s.tsr else s.tsr.map (fun f => { f with ok := false })

/-- The state after the write of a step of the initialisation, where the latch is as the earlier steps left it. -/
def initWrite (d : BitVec 16) (k : InitStep) (s : State) : State :=
  match k with
  | .disableInterrupts =>
    if s.latch then { s with dlh := 0x00, tsr := damagedTsr s.dlh 0x00 s } else { s with ier := 0x00 }
  | .setLatch => { s with lcr := 0x80, tsr := damagedTsr s.lcr 0x80 s }
  | .divisorLow => { s with dll := divisorLowByte d, tsr := damagedTsr s.dll (divisorLowByte d) s }
  | .divisorHigh => { s with dlh := divisorHighByte d, tsr := damagedTsr s.dlh (divisorHighByte d) s }
  | .clearLatch => { s with lcr := 0x03, tsr := damagedTsr s.lcr 0x03 s }
  | .fifoInit => { s with fcr := s.platform.fcrInit, fifoEn := true, txq := [], rxq := [] }
  | .autoflow => { s with mcr := 0x20, tsr := damagedTsr s.mcr 0x20 s }

/-- Each step's word performs its write; the latch is set at the two writes of the divisor. -/
theorem issue_initWord_eq {s : State} {k : InitStep} {d : BitVec 16} (hp : InitProgress k d s) :
    issue (initWord s.platform d k) s = .next (initWrite d k s) := by
  rw [issue_initWord]
  cases k with
  | disableInterrupts =>
    refine (busWrite_offset4 _ s).trans ?_
    cases hl : s.latch
    · simp only [initWrite, hl]; rfl
    · simp only [initWrite, hl]; exact exec_dlhWrite 0x00 s
  | setLatch => exact (busWrite_lcr _ s).trans (exec_lcrWrite _ s)
  | divisorLow =>
    have hl : s.latch = true := latch_of_lcr_eq_0x80 hp
    exact ((busWrite_offset0 _ s).trans (if_pos hl)).trans (exec_dllWrite _ s)
  | divisorHigh =>
    have hl : s.latch = true := latch_of_lcr_eq_0x80 hp.1
    exact ((busWrite_offset4 _ s).trans (if_pos hl)).trans (exec_dlhWrite _ s)
  | clearLatch => exact (busWrite_lcr _ s).trans (exec_lcrWrite _ s)
  | fifoInit => exact (busWrite_fcr _ s).trans ((fcrWriteResult s s.platform.fcrInit).1 rfl)
  | autoflow => exact (busWrite_mcr _ s).trans (exec_mcrWrite _ s)

/-- What the initialisation has written once the write of a step has been made (43_init.md R140). -/
def InitDone (k : InitStep) (d : BitVec 16) (s : State) : Prop :=
  match k with
  | .disableInterrupts => InitProgress .setLatch d s
  | .setLatch => InitProgress .divisorLow d s
  | .divisorLow => InitProgress .divisorHigh d s
  | .divisorHigh => InitProgress .clearLatch d s
  | .clearLatch => InitProgress .fifoInit d s
  | .fifoInit => InitProgress .autoflow d s
  | .autoflow => InitProgress .autoflow d s ∧ s.mcr = 0x20

/-- Each write adds its register to what has been written. -/
theorem initDone_initWrite {s : State} {k : InitStep} {d : BitVec 16} (hp : InitProgress k d s) :
    InitDone k d (initWrite d k s) := by
  cases k with
  | disableInterrupts => trivial
  | setLatch => rfl
  | divisorLow => exact ⟨hp, rfl⟩
  | divisorHigh => exact ⟨hp.2, rfl⟩
  | clearLatch => exact ⟨rfl, hp⟩
  | fifoInit =>
    obtain ⟨hlcr, hdll, hdlh⟩ := hp
    exact ⟨hlcr, hdll, hdlh, rfl, rfl, rfl⟩
  | autoflow => exact ⟨hp, rfl⟩

theorem seqFacts_initNext {u : State} {k : InitStep} {d : BitVec 16} (hd : d ≠ 0) (h : InitDone k d u) :
    SeqFacts { u with seq := initNext d k } := by
  cases k with
  | autoflow => trivial
  | disableInterrupts | setLatch | divisorLow | divisorHigh | clearLatch | fifoInit => exact ⟨hd, h⟩

/-! ## The moves keep the invariant -/

theorem seqFacts_of_txProbe_send {s t : State} {c : Byte} (hc : Consistent s)
    (h : txProbe (.sendWaitHi c) (finishSendProbe c) s = .next t) : SeqFacts t := by
  cases hp : s.platform.probeTx with
  | thre =>
    rw [txProbe_of_thre hp] at h
    obtain rfl := Host.Outcome.next.inj h
    exact seqFacts_finishSendProbe (u := lsrRead s) (roomForWrite_of_thre hp)
  | count8 lo hi =>
    rw [txProbe_of_count8 hc.platform hp] at h
    obtain rfl := Host.Outcome.next.inj h
    exact (lowByteOfEarlierSpace_txcnt (txFree_lt_of_txDepth s hc.depth) :)

theorem seqFacts_of_txProbe_alone {s t : State} (hc : Consistent s)
    (h : txProbe .txReadyHi finishTxReady s = .next t) : SeqFacts t := by
  cases hp : s.platform.probeTx with
  | thre =>
    rw [txProbe_of_thre hp] at h
    obtain rfl := Host.Outcome.next.inj h
    exact seqFacts_of_idle rfl
  | count8 lo hi =>
    rw [txProbe_of_count8 hc.platform hp] at h
    obtain rfl := Host.Outcome.next.inj h
    exact (lowByteOfEarlierSpace_txcnt (txFree_lt_of_txDepth s hc.depth) :)

theorem seqFacts_of_txProbeHi_send {s t : State} {c l : Byte} (hc : Consistent s) (hl : LowByteOfEarlierSpace l s)
    (h : txProbeHi l (finishSendProbe c) s = .next t) : SeqFacts t := by
  cases hp : s.platform.probeTx with
  | thre =>
    rw [txProbeHi_of_thre hp] at h
    obtain rfl := Host.Outcome.next.inj h
    exact seqFacts_finishSendProbe (u := lsrRead s) (roomForWrite_of_thre hp)
  | count8 lo hi =>
    rw [txProbeHi_of_count8 hc.platform hp, countReady_txcnt_high (txFree_lt_of_txDepth s hc.depth)] at h
    obtain rfl := Host.Outcome.next.inj h
    refine seqFacts_finishSendProbe fun hready => ?_
    exact (roomForWrite_of_count8 hp (count_le_txFree hl (of_decide_eq_true hready)) :)

theorem seqFacts_of_txProbeHi_alone {s t : State} {l : Byte} (h : txProbeHi l finishTxReady s = .next t) : SeqFacts t := by
  unfold txProbeHi at h
  split at h
  all_goals
    obtain ⟨u, -, rfl⟩ := andThen_eq_next h
    exact seqFacts_of_idle rfl

/-- The position a host move reaches has its facts. -/
theorem seqFacts_of_hostStep {s t : State} (hc : Consistent s) (h : hostStep s = .next t) : SeqFacts t := by
  have hf := hc.seq
  cases hs : s.seq with
  | idle =>
    cases hp : s.program with
    | nil => rwa [← Host.Outcome.next.inj ((hostStep_done hs hp).symm.trans h)]
    | cons op rest =>
      rw [hostStep_idle hs hp] at h
      exact seqFacts_of_startOp (s := { s with program := rest }) hs h
  | txReady => rw [hostStep_txReady hs] at h; exact seqFacts_of_txProbe_alone hc h
  | txReadyHi l => rw [hostStep_txReadyHi hs] at h; exact seqFacts_of_txProbeHi_alone h
  | rxReady =>
    rw [hostStep_rxReady hs] at h
    obtain ⟨-, rfl⟩ | ⟨ready, u, -, -, rfl⟩ := rxProbe_eq_next h <;> exact seqFacts_of_idle rfl
  | sendWait c => rw [hostStep_sendWait hs] at h; exact seqFacts_of_txProbe_send hc h
  | sendWaitHi c l =>
    rw [hostStep_sendWaitHi hs] at h
    exact seqFacts_of_txProbeHi_send hc (by simpa only [SeqFacts, hs] using hf) h
  | sendWrite c =>
    rw [hostStep_sendWrite hs] at h
    obtain ⟨u, -, rfl⟩ := andThen_eq_next h
    exact seqFacts_of_idle rfl
  | pollProbe =>
    rw [hostStep_pollProbe hs] at h
    obtain ⟨hp, rfl⟩ | ⟨ready, u, hp, hu, rfl⟩ := rxProbe_eq_next h
    · refine seqFacts_finishPollProbe fun hready _ => ?_
      show s.rxq ≠ []
      simpa using hready
    · obtain ⟨hplat, -⟩ := exec_keeps_host hu
      exact seqFacts_finishPollProbe fun _ hdr => absurd (hplat ▸ hdr) hp
  | pollRead =>
    rw [hostStep_pollRead hs] at h
    obtain ⟨u, -, rfl⟩ := andThen_eq_next h
    exact seqFacts_of_idle rfl
  | init k d =>
    rw [hostStep_init hs] at h
    obtain ⟨hd, hp⟩ : d ≠ 0 ∧ InitProgress k d s := by simpa only [SeqFacts, hs] using hf
    rw [issue_initWord_eq hp, andThen_next] at h
    obtain rfl := Host.Outcome.next.inj h
    exact seqFacts_initNext hd (initDone_initWrite hp)

theorem Consistent.hostStep {s t : State} (hc : Consistent s) (h : hostStep s = .next t) : Consistent t := by
  have hp := platform_of_hostStep h
  exact ⟨hp ▸ hc.platform, hp ▸ hc.depth, hc.queues.hostStep h, seqFacts_of_hostStep hc h⟩

theorem Consistent.lineEffect {m : Move} {s t : State} (hc : Consistent s) (h : LineEffect s m t) : Consistent t :=
  ⟨h.frame.platform ▸ hc.platform, h.frame.platform ▸ hc.depth, hc.queues.lineEffect h, h.frame.seqFacts hc.seq⟩

theorem Consistent.moveStep {m : Move} {s t : State} (hc : Consistent s) (h : moveStep m s = .next t) : Consistent t := by
  by_cases hm : m = .host
  · subst hm; exact hc.hostStep h
  · exact hc.lineEffect (lineEffect_of_moveStep hm h)

/-- Settles O30: the host and the line agents keep the invariant, which does not speak of the schedule. -/
theorem everyMoveKeepsTheInvariant : Obligations.EveryMoveKeepsTheInvariant := by
  refine ⟨fun m s t hc h => hc.moveStep h, fun s t hc h => ?_⟩
  have hc' : Consistent s.afterMove := ⟨hc.platform, hc.depth, hc.queues, hc.seq⟩
  exact hc'.moveStep h

/-! ## Fewer than 8 entries -/

/-- `SEND_CHAR` waits, and a low byte it keeps is below 8. -/
def WaitsBelowEight (c : Byte) (q : SeqState) : Prop := q = .sendWait c ∨ ∃ l : Byte, q = .sendWaitHi c l ∧ l.toNat < 8

/-- A host that waits below 8 entries goes on waiting. -/
theorem waitsBelowEight_of_hostStep {s t : State} {lo hi : Offset} {c : Byte} (hw : s.platform.wf = true)
    (hp : s.platform.probeTx = .count8 lo hi) (hcap : s.capTx < 8) (hs : WaitsBelowEight c s.seq)
    (h : hostStep s = .next t) : t.capTx = s.capTx ∧ WaitsBelowEight c t.seq := by
  have hfree : s.txFree < 8 := Nat.lt_of_le_of_lt (Nat.sub_le _ _) hcap
  have hf : s.txFree < 65536 := by omega
  obtain hs | ⟨l, hs, hl⟩ := hs
  · rw [hostStep_sendWait hs, txProbe_of_count8 hw hp, txcnt_low s hf] at h
    obtain rfl := Host.Outcome.next.inj h
    refine ⟨rfl, .inr ⟨_, rfl, ?_⟩⟩
    rw [BitVec.toNat_ofNat]
    omega
  · have hready : decide (8 ≤ s.txFree / 256 * 256 + l.toNat) = false := decide_eq_false (by omega)
    rw [hostStep_sendWaitHi hs, txProbeHi_of_count8 hw hp, countReady_txcnt_high hf, hready] at h
    obtain rfl := Host.Outcome.next.inj h
    exact ⟨rfl, .inl rfl⟩

/-- Settles O42: a probe counts fewer than 8, and no line agent touches the position or the capacity. -/
theorem readyCountNeverReadyBelowEight : Obligations.ReadyCountNeverReadyBelowEight := by
  intro m s t lo hi c hw hp hcap hs h
  by_cases hm : m = .host
  · subst hm
    obtain ⟨hcap', hs'⟩ := waitsBelowEight_of_hostStep hw hp hcap hs h
    exact ⟨hcap' ▸ hcap, platform_of_hostStep h, hs'⟩
  · have hframe := (lineEffect_of_moveStep hm h).frame
    exact ⟨hframe.capTx ▸ hcap, hframe.platform, hframe.seq ▸ hs⟩

end Sys2Proof.Machine
end

section
/-! SUPPORT. The statement of 43_init.md about what `UART_INIT` leaves: a stage for each number of host moves still to be
made, which the host's next move lowers by one and no line agent moves. -/

namespace Sys2Proof.Machine

/-! ## What stays in place during the initialisation -/

/-- The platform and the refusal mark are those of `s₀`, and `prog` is what the host has yet to issue. -/
structure InitFrame (s₀ : State) (prog : List HostOp) (s : State) : Prop where
  platform : s.platform = s₀.platform
  refused : s.refused = s₀.refused
  program : s.program = prog

theorem initFrame_initWrite (d : BitVec 16) (k : InitStep) (s : State) : InitFrame s s.program (initWrite d k s) := by
  cases k with
  | disableInterrupts => rw [initWrite]; cases s.latch <;> exact ⟨rfl, rfl, rfl⟩
  | setLatch | divisorLow | divisorHigh | clearLatch | fifoInit | autoflow => exact ⟨rfl, rfl, rfl⟩

theorem LineEffect.initFrame {m : Move} {s t : State} (h : LineEffect s m t) : InitFrame s s.program t := by
  cases h <;> exact ⟨rfl, rfl, rfl⟩

theorem InitFrame.trans {s₀ s t : State} {prog : List HostOp} (h : InitFrame s₀ prog s) (h' : InitFrame s s.program t) :
    InitFrame s₀ prog t :=
  ⟨h'.platform.trans h.platform, h'.refused.trans h.refused, h'.program.trans h.program⟩

/-- IER once the first write has been made: 0x00, or what it was where that write went to DLH. -/
def ierAfterInit (s₀ : State) : Byte := if s₀.latch then s₀.ier else 0x00

/-- IER at a step of the initialisation that began in `s₀`; before the first write the latch is that of `s₀` too. -/
def InitIer (s₀ : State) (k : InitStep) (s : State) : Prop :=
  match k with
  | .disableInterrupts => s.latch = s₀.latch ∧ s.ier = s₀.ier
  | .setLatch | .divisorLow | .divisorHigh | .clearLatch | .fifoInit | .autoflow => s.ier = ierAfterInit s₀

/-- Only the first write can reach IER, and does where the latch is clear. -/
theorem InitIer.initWrite {s₀ s : State} {k : InitStep} (h : InitIer s₀ k s) (d : BitVec 16) :
    (initWrite d k s).ier = ierAfterInit s₀ := by
  cases k with
  | disableInterrupts =>
    obtain ⟨hl, hier⟩ := h
    rw [Machine.initWrite, ierAfterInit, ← hl]
    cases s.latch
    · rfl
    · exact hier
  | setLatch | divisorLow | divisorHigh | clearLatch | fifoInit | autoflow => exact h

theorem LineEffect.ier {m : Move} {s t : State} (h : LineEffect s m t) : t.ier = s.ier := by cases h <;> rfl

theorem LineEffect.mcr {m : Move} {s t : State} (h : LineEffect s m t) : t.mcr = s.mcr := by cases h <;> rfl

theorem InitIer.lineEffect {s₀ s t : State} {k : InitStep} {m : Move} (h : InitIer s₀ k s) (he : LineEffect s m t) :
    InitIer s₀ k t := by
  have hlatch : t.latch = s.latch := congrArg (BitVec.getLsbD · 7) he.frame.lcr
  cases k with
  | disableInterrupts =>
    obtain ⟨hl, hier⟩ := h
    exact ⟨hlatch.trans hl, he.ier.trans hier⟩
  | setLatch | divisorLow | divisorHigh | clearLatch | fifoInit | autoflow => exact he.ier.trans h

/-! ## The stages -/

/-- How many moves the host still has to make at a step of the initialisation. -/
def movesLeft : InitStep → Nat
  | .disableInterrupts => 7
  | .setLatch => 6
  | .divisorLow => 5
  | .divisorHigh => 4
  | .clearLatch => 3
  | .fifoInit => 2
  | .autoflow => 1

/-- `InitStage s₀ d rest n s`: an initialisation with the divisor `d` that began in `s₀`, before the operations `rest`, has
come to `s`, and the host has `n` of its eight moves still to make. -/
inductive InitStage (s₀ : State) (d : BitVec 16) (rest : List HostOp) : Nat → State → Prop
  /-- `UART_INIT` is next in the program -/
  | entry {s : State} {frequency baud : Nat} (hd : divisorOperand frequency baud = some d) (hseq : s.seq = .idle)
      (hframe : InitFrame s₀ (.uartInit frequency baud :: rest) s) (hier : InitIer s₀ .disableInterrupts s) :
      InitStage s₀ d rest 8 s
  /-- the write of the step `k` is next -/
  | atStep {s : State} {n : Nat} (k : InitStep) (hn : n = movesLeft k) (hseq : s.seq = .init k d)
      (hframe : InitFrame s₀ rest s) (hier : InitIer s₀ k s) (hprogress : InitProgress k d s) : InitStage s₀ d rest n s
  /-- all writes have been made -/
  | finished {s : State} (hseq : s.seq = .idle) (hframe : InitFrame s₀ rest s) (hier : s.ier = ierAfterInit s₀)
      (hdone : InitDone .autoflow d s) : InitStage s₀ d rest 0 s

/-- No line agent moves the stage. -/
theorem InitStage.lineEffect {s₀ s t : State} {d : BitVec 16} {rest : List HostOp} {n : Nat} {m : Move}
    (h : InitStage s₀ d rest n s) (he : LineEffect s m t) : InitStage s₀ d rest n t := by
  cases h with
  | entry hd hseq hframe hier =>
    exact .entry hd (he.frame.seq.trans hseq) (hframe.trans he.initFrame) (hier.lineEffect he)
  | atStep k hn hseq hframe hier hprogress =>
    exact .atStep k hn (he.frame.seq.trans hseq) (hframe.trans he.initFrame) (hier.lineEffect he)
      (he.frame.initProgress hprogress)
  | finished hseq hframe hier hdone =>
    obtain ⟨hprogress, hmcr⟩ := hdone
    exact .finished (he.frame.seq.trans hseq) (hframe.trans he.initFrame) (he.ier.trans hier)
      ⟨he.frame.initProgress hprogress, he.mcr.trans hmcr⟩

/-- The next move of the host lowers the stage by one. -/
theorem InitStage.hostStep {s₀ s : State} {d : BitVec 16} {rest : List HostOp} {n : Nat}
    (h : InitStage s₀ d rest (n + 1) s) : ∃ t, hostStep s = .next t ∧ InitStage s₀ d rest n t := by
  cases h with
  | entry hd hseq hframe hier =>
    refine ⟨{ s with program := rest, seq := .init .disableInterrupts d }, ?_,
      .atStep .disableInterrupts rfl rfl ⟨hframe.platform, hframe.refused, rfl⟩ hier trivial⟩
    rw [hostStep_idle hseq hframe.program, startOp, hd]
  | atStep k hn hseq hframe hier hprogress =>
    refine ⟨_, moveStep_host_init hseq (issue_initWord_eq hprogress), ?_⟩
    have hdone := initDone_initWrite hprogress
    have hier' := hier.initWrite d
    obtain ⟨hplat, href, hprog⟩ := hframe.trans (initFrame_initWrite d k s)
    cases k with
    | autoflow =>
      obtain rfl : n = 0 := Nat.succ.inj hn
      exact .finished rfl ⟨hplat, href, hprog⟩ hier' hdone
    | disableInterrupts => exact .atStep .setLatch (Nat.succ.inj hn) rfl ⟨hplat, href, hprog⟩ hier' hdone
    | setLatch => exact .atStep .divisorLow (Nat.succ.inj hn) rfl ⟨hplat, href, hprog⟩ hier' hdone
    | divisorLow => exact .atStep .divisorHigh (Nat.succ.inj hn) rfl ⟨hplat, href, hprog⟩ hier' hdone
    | divisorHigh => exact .atStep .clearLatch (Nat.succ.inj hn) rfl ⟨hplat, href, hprog⟩ hier' hdone
    | clearLatch => exact .atStep .fifoInit (Nat.succ.inj hn) rfl ⟨hplat, href, hprog⟩ hier' hdone
    | fifoInit => exact .atStep .autoflow (Nat.succ.inj hn) rfl ⟨hplat, href, hprog⟩ hier' hdone

/-! ## Every schedule -/

theorem runMoves_cons {m : Move} {s t : State} (h : moveStep m s = .next t) (ms : List Move) :
    runMoves (m :: ms) s = runMoves ms t := by
  rw [runMoves, h]

/-- Moves with as many of the host's as the stage has left bring the initialisation to its end. -/
theorem InitStage.runMoves {s₀ : State} {d : BitVec 16} {rest : List HostOp} (moves : List Move) {s : State}
    (h : InitStage s₀ d rest (moves.count .host) s) : ∃ t, runMoves moves s = .next t ∧ InitStage s₀ d rest 0 t := by
  induction moves generalizing s with
  | nil => exact ⟨s, rfl, h⟩
  | cons m ms ih =>
    by_cases hm : m = .host
    · subst hm
      rw [List.count_cons_self] at h
      obtain ⟨t, ht, hstage⟩ := h.hostStep
      rw [runMoves_cons (m := .host) ht]
      exact ih hstage
    · rw [List.count_cons_of_ne hm] at h
      obtain ⟨t, ht, he⟩ := exists_lineEffect hm s
      rw [runMoves_cons ht]
      exact ih (h.lineEffect he)

/-- The two bytes of the divisor, put together again. -/
theorem divisorHighByte_append_divisorLowByte (d : BitVec 16) :
    (divisorHighByte d ++ divisorLowByte d : BitVec 16) = d := by
  ext i hi
  simp [divisorHighByte, divisorLowByte]
  grind

/-- The configuration that the initialisation has written. -/
theorem configured_of_initDone {s : State} {d : BitVec 16} (hd : d ≠ 0) (h : InitDone .autoflow d s) :
    s.configured = true := by
  obtain ⟨⟨hlcr, hdll, hdlh, -, -, -⟩, hmcr⟩ := h
  have hdiv : s.divisor = d := by rw [State.divisor, hdll, hdlh, divisorHighByte_append_divisorLowByte]
  simpa [State.configured, hlcr, hmcr, hdiv] using hd

/-- Settles O52: eight moves of the host end the stages, whatever the line agents do between them. -/
theorem initLeavesTheBlockConfigured : Obligations.InitLeavesTheBlockConfigured := by
  intro s frequency baud d rest moves hs hp hd hcount
  have hentry : InitStage s d rest (moves.count .host) s :=
    hcount ▸ .entry hd hs ⟨rfl, rfl, hp⟩ ⟨rfl, rfl⟩
  obtain ⟨t, ht, hstage⟩ := hentry.runMoves
  refine ⟨t, ht, ?_⟩
  cases hstage with
  | atStep k hn => cases k <;> cases hn
  | finished hseq hframe hier hdone =>
    have hconf := configured_of_initDone (ne_zero_of_divisorOperand hd) hdone
    obtain ⟨⟨hlcr, hdll, hdlh, hfcr, hen, hq⟩, hmcr⟩ := hdone
    exact ⟨hseq, hframe.program, hlcr, hmcr, hdll, hdlh, hfcr.trans (congrArg _ hframe.platform), hen, hq, hconf, hier,
      hframe.refused⟩

end Sys2Proof.Machine
end

section
/-! SUPPORT. The liveness statement of 44_line_agents.md: under `TX_FAIR` a waiting `SEND_CHAR` ends. While it waits no byte is
added, so what is on its way out only gets less; fairness takes it to nothing; and with an empty queue the probe is true
after at most three moves of the host. -/

namespace Sys2Proof.Machine

/-! ## A host that waits -/

/-- `SEND_CHAR` waits for a true probe. -/
def Waits (c : Byte) (q : SeqState) : Prop := q = .sendWait c ∨ ∃ l : Byte, q = .sendWaitHi c l

theorem finishSendProbe_seq (c : Byte) (ready : Bool) (u : State) :
    Waits c (finishSendProbe c ready u).seq ∨ (finishSendProbe c ready u).seq = .sendWrite c := by
  cases ready
  · exact .inl (.inl rfl)
  · exact .inr rfl

/-- A move of a waiting host touches neither the bytes on their way out nor the FIFO enable, and it goes on waiting or to the
write. -/
theorem hostStep_of_waits {s t : State} {c : Byte} (hc : Consistent s) (hw : Waits c s.seq) (h : hostStep s = .next t) :
    (t.txq = s.txq ∧ t.tsr = s.tsr ∧ t.fifoEn = s.fifoEn) ∧ (Waits c t.seq ∨ t.seq = .sendWrite c) := by
  obtain hs | ⟨l, hs⟩ := hw
  · rw [hostStep_sendWait hs] at h
    cases hp : s.platform.probeTx with
    | thre =>
      rw [txProbe_of_thre hp] at h
      obtain rfl := Host.Outcome.next.inj h
      exact ⟨⟨rfl, rfl, rfl⟩, finishSendProbe_seq _ _ _⟩
    | count8 lo hi =>
      rw [txProbe_of_count8 hc.platform hp] at h
      obtain rfl := Host.Outcome.next.inj h
      exact ⟨⟨rfl, rfl, rfl⟩, .inl (.inr ⟨_, rfl⟩)⟩
  · rw [hostStep_sendWaitHi hs] at h
    cases hp : s.platform.probeTx with
    | thre =>
      rw [txProbeHi_of_thre hp] at h
      obtain rfl := Host.Outcome.next.inj h
      exact ⟨⟨rfl, rfl, rfl⟩, finishSendProbe_seq _ _ _⟩
    | count8 lo hi =>
      rw [txProbeHi_of_count8 hc.platform hp] at h
      obtain rfl := Host.Outcome.next.inj h
      exact ⟨⟨rfl, rfl, rfl⟩, finishSendProbe_seq _ _ _⟩

/-- A platform on which an empty queue makes the probe true (42_transceiver.md R131). -/
def ProbeCanSucceed (s : State) : Prop :=
  s.platform.probeTx = .thre ∨ (s.fifoEn = true ∧ 8 ≤ s.platform.txDepth)

/-- On such a ready-count platform an empty queue has the whole depth free. -/
theorem txFree_of_empty {s : State} {lo hi : Offset} (hp : s.platform.probeTx = .count8 lo hi) (hr : ProbeCanSucceed s)
    (hq : s.txq = []) : s.txFree = s.platform.txDepth ∧ 8 ≤ s.platform.txDepth := by
  obtain hr | ⟨hen, hdepth⟩ := hr
  · simp [hp] at hr
  · exact ⟨by rw [State.txFree, capTx_of_fifoEn s hen, hq]; rfl, hdepth⟩

/-- With an empty queue the probe is true, or keeps the low byte of the whole depth. -/
theorem sendWait_of_empty {s t : State} {c : Byte} (hc : Consistent s) (hr : ProbeCanSucceed s) (hq : s.txq = [])
    (hs : s.seq = .sendWait c) (h : hostStep s = .next t) :
    t.seq = .sendWrite c ∨ t.seq = .sendWaitHi c (BitVec.ofNat 8 s.platform.txDepth) := by
  rw [hostStep_sendWait hs] at h
  cases hp : s.platform.probeTx with
  | thre =>
    rw [txProbe_of_thre hp, hq] at h
    obtain rfl := Host.Outcome.next.inj h
    exact .inl rfl
  | count8 lo hi =>
    rw [txProbe_of_count8 hc.platform hp, txcnt_low s (txFree_lt_of_txDepth s hc.depth), (txFree_of_empty hp hr hq).1] at h
    obtain rfl := Host.Outcome.next.inj h
    exact .inr rfl

/-- With an empty queue the second half of the probe is true, unless the low byte was kept from a smaller space. -/
theorem sendWaitHi_of_empty {s t : State} {c l : Byte} (hc : Consistent s) (hr : ProbeCanSucceed s) (hq : s.txq = [])
    (hs : s.seq = .sendWaitHi c l) (h : hostStep s = .next t) :
    t.seq = .sendWrite c ∨ (t.seq = .sendWait c ∧ l ≠ BitVec.ofNat 8 s.platform.txDepth) := by
  rw [hostStep_sendWaitHi hs] at h
  cases hp : s.platform.probeTx with
  | thre =>
    rw [txProbeHi_of_thre hp, hq] at h
    obtain rfl := Host.Outcome.next.inj h
    exact .inl rfl
  | count8 lo hi =>
    obtain ⟨hfree, hdepth⟩ := txFree_of_empty hp hr hq
    rw [txProbeHi_of_count8 hc.platform hp, countReady_txcnt_high (txFree_lt_of_txDepth s hc.depth), hfree] at h
    obtain rfl := Host.Outcome.next.inj h
    by_cases hready : 8 ≤ s.platform.txDepth / 256 * 256 + l.toNat
    · rw [decide_eq_true hready]
      exact .inl rfl
    · rw [decide_eq_false hready]
      refine .inr ⟨rfl, ?_⟩
      rintro rfl
      rw [BitVec.toNat_ofNat] at hready
      omega

/-! ## What is on its way out -/

/-- The transmitter steps that the bytes on their way still need: two for a queued byte, one for the byte in flight. -/
def stepsOwed (s : State) : Nat := 2 * s.txq.length + s.tsr.toList.length

/-- While `SEND_CHAR` waits, a move leaves the bytes on their way, being then no enabled step of the transmitter, or it lowers
the number of steps owed. -/
theorem stepsOwed_of_waits {m : Move} {s t : State} {c : Byte} (hc : Consistent s) (hw : Waits c s.seq)
    (h : moveStep m s = .next t) :
    (t.txq = s.txq ∧ t.tsr = s.tsr ∧ (m = .txLoad → txLoadEnabled s = false) ∧ (m = .txDone → txDoneEnabled s = false)) ∨
    stepsOwed t < stepsOwed s := by
  by_cases hm : m = .host
  · subst hm
    obtain ⟨⟨hq, ht, -⟩, -⟩ := hostStep_of_waits hc hw h
    exact .inl ⟨hq, ht, nofun, nofun⟩
  · cases lineEffect_of_moveStep hm h with
    | loaded b rest hq ht => exact .inr (by simp [stepsOwed, hq, ht]; omega)
    | sent f ht => exact .inr (by simp [stepsOwed, ht])
    | notLoaded hno =>
      have hdisabled : txLoadEnabled s = false := by
        simpa [txLoadEnabled, Option.ne_none_iff_isSome, or_iff_not_imp_left] using hno
      exact .inl ⟨rfl, rfl, fun _ => hdisabled, nofun⟩
    | notSent ht => exact .inl ⟨rfl, rfl, nofun, fun _ => by simp [txDoneEnabled, ht]⟩
    | stored | lost => exact .inl ⟨rfl, rfl, nofun, nofun⟩

/-! ## An execution in which the host waits for ever -/

/-- From a moment on, the host makes its next move at the position it has now. -/
theorem exists_next_hostMove {f : Nat → Move} {σ : Nat → State} (hex : Execution f σ) (hh : HostMoves f) (n : Nat) :
    ∃ m, n ≤ m ∧ f m = .host ∧ (σ m).seq = (σ n).seq := by
  obtain ⟨m, hm, hf⟩ := hh n
  obtain ⟨k, rfl⟩ := Nat.exists_eq_add_of_le hm
  clear hm
  induction k generalizing n with
  | zero => exact ⟨n, Nat.le_refl n, hf, rfl⟩
  | succ k ih =>
    by_cases hn : f n = .host
    · exact ⟨n, Nat.le_refl n, hn, rfl⟩
    · obtain ⟨m, hm, hf', hseq⟩ := ih (n + 1) (by rwa [Nat.add_right_comm])
      exact ⟨m, Nat.le_of_succ_le hm, hf', hseq.trans (lineEffect_of_moveStep hn (hex n)).frame.seq⟩

/-- The supposition that is refuted: a fair execution within the invariant in which `SEND_CHAR` waits at every moment. -/
structure WaitsForEver (f : Nat → Move) (σ : Nat → State) (c : Byte) : Prop where
  execution : Execution f σ
  host : HostMoves f
  fair : TxFair f σ
  consistent : ∀ n, Consistent (σ n)
  waits : ∀ n, Waits c (σ n).seq
  succeeds : ∀ n, ProbeCanSucceed (σ n)
  platform : ∀ n, (σ n).platform = (σ 0).platform

section
variable {f : Nat → Move} {σ : Nat → State} {c : Byte}

/-- Where as few steps are owed as ever will be, a move leaves the bytes on their way, being no enabled transmitter step. -/
theorem WaitsForEver.keeps_of_min (h : WaitsForEver f σ c) {N n : Nat} (hmin : ∀ n, stepsOwed (σ N) ≤ stepsOwed (σ n))
    (hq : (σ n).txq = (σ N).txq) (ht : (σ n).tsr = (σ N).tsr) :
    (σ (n + 1)).txq = (σ n).txq ∧ (σ (n + 1)).tsr = (σ n).tsr ∧ (f n = .txLoad → txLoadEnabled (σ n) = false) ∧
      (f n = .txDone → txDoneEnabled (σ n) = false) := by
  obtain hkeep | hless := stepsOwed_of_waits (h.consistent n) (h.waits n) (h.execution n)
  · exact hkeep
  · have hsame : stepsOwed (σ n) = stepsOwed (σ N) := by rw [stepsOwed, stepsOwed, hq, ht]
    exact absurd (hmin (n + 1)) (Nat.not_le.mpr (hsame ▸ hless))

/-- From there on the bytes on their way stay for ever. -/
theorem WaitsForEver.stays (h : WaitsForEver f σ c) {N n : Nat} (hmin : ∀ n, stepsOwed (σ N) ≤ stepsOwed (σ n))
    (hn : N ≤ n) : (σ n).txq = (σ N).txq ∧ (σ n).tsr = (σ N).tsr := by
  induction n, hn using Nat.le_induction with
  | base => exact ⟨rfl, rfl⟩
  | succ n hn ih =>
    obtain ⟨hq, ht⟩ := ih
    obtain ⟨hq', ht', -⟩ := h.keeps_of_min hmin hq ht
    exact ⟨hq'.trans hq, ht'.trans ht⟩

/-- Fairness leaves nothing that stays: the queue is empty from some moment on. -/
theorem WaitsForEver.drains (h : WaitsForEver f σ c) : ∃ N, ∀ n, N ≤ n → (σ n).txq = [] := by
  obtain ⟨N, hmin⟩ : ∃ N, ∀ n, stepsOwed (σ N) ≤ stepsOwed (σ n) :=
    ⟨Function.argmin (fun n => stepsOwed (σ n)), fun n => Function.argmin_le (fun n => stepsOwed (σ n)) n⟩
  obtain ⟨hload, hdone⟩ := h.fair
  have hidle {m : Nat} (hm : N ≤ m) := h.keeps_of_min hmin (h.stays hmin hm).1 (h.stays hmin hm).2
  have htsr : (σ N).tsr = none := by
    by_contra hne
    have hen (m : Nat) (hm : N ≤ m) : txDoneEnabled (σ m) = true := by
      rw [txDoneEnabled, (h.stays hmin hm).2]
      exact Option.ne_none_iff_isSome.mp hne
    obtain ⟨m, hm, hf⟩ := hdone N hen
    obtain ⟨-, -, -, hdisabled⟩ := hidle hm
    exact Bool.noConfusion ((hen m hm).symm.trans (hdisabled hf))
  have hq : (σ N).txq = [] := by
    by_contra hne
    have hen (m : Nat) (hm : N ≤ m) : txLoadEnabled (σ m) = true := by
      rw [txLoadEnabled, (h.stays hmin hm).1, (h.stays hmin hm).2, htsr]
      simpa using hne
    obtain ⟨m, hm, hf⟩ := hload N hen
    obtain ⟨-, -, hdisabled, -⟩ := hidle hm
    exact Bool.noConfusion ((hen m hm).symm.trans (hdisabled hf))
  exact ⟨N, fun n hn => (h.stays hmin hn).1.trans hq⟩

theorem WaitsForEver.seq_ne_sendWrite (h : WaitsForEver f σ c) (n : Nat) : (σ n).seq ≠ .sendWrite c := by
  obtain hs | ⟨l, hs⟩ := h.waits n <;> rw [hs] <;> nofun

/-- The host's next move, at the position it has now. -/
theorem WaitsForEver.next_hostStep (h : WaitsForEver f σ c) (n : Nat) :
    ∃ m, n ≤ m ∧ (σ m).seq = (σ n).seq ∧ hostStep (σ m) = .next (σ (m + 1)) := by
  obtain ⟨m, hm, hf, hseq⟩ := exists_next_hostMove h.execution h.host n
  have hstep := h.execution m
  rw [hf] at hstep
  exact ⟨m, hm, hseq, hstep⟩

/-- With an empty queue the probe comes to its first half, from there to the low byte of the whole depth, and then succeeds. -/
theorem not_waitsForEver : ¬ WaitsForEver f σ c := by
  intro h
  obtain ⟨N, hq⟩ := h.drains
  obtain ⟨n₁, hn₁, hs₁⟩ : ∃ n, N ≤ n ∧ (σ n).seq = .sendWait c := by
    obtain hs | ⟨l, hs⟩ := h.waits N
    · exact ⟨N, Nat.le_refl N, hs⟩
    · obtain ⟨m, hm, hseq, hstep⟩ := h.next_hostStep N
      obtain hw | ⟨hs', -⟩ := sendWaitHi_of_empty (h.consistent m) (h.succeeds m) (hq m hm) (hseq.trans hs) hstep
      · exact absurd hw (h.seq_ne_sendWrite _)
      · exact ⟨m + 1, Nat.le_succ_of_le hm, hs'⟩
  obtain ⟨n₂, hn₂, hs₂⟩ : ∃ n, N ≤ n ∧ (σ n).seq = .sendWaitHi c (BitVec.ofNat 8 (σ 0).platform.txDepth) := by
    obtain ⟨m, hm, hseq, hstep⟩ := h.next_hostStep n₁
    have hm' : N ≤ m := hn₁.trans hm
    obtain hw | hs' := sendWait_of_empty (h.consistent m) (h.succeeds m) (hq m hm') (hseq.trans hs₁) hstep
    · exact absurd hw (h.seq_ne_sendWrite _)
    · exact ⟨m + 1, Nat.le_succ_of_le hm', h.platform m ▸ hs'⟩
  obtain ⟨m, hm, hseq, hstep⟩ := h.next_hostStep n₂
  obtain hw | ⟨-, hne⟩ :=
    sendWaitHi_of_empty (h.consistent m) (h.succeeds m) (hq m (hn₂.trans hm)) (hseq.trans hs₂) hstep
  · exact absurd hw (h.seq_ne_sendWrite _)
  · exact hne (by rw [h.platform m])

end

/-! ## The end of `SEND_CHAR` -/

theorem consistent_of_execution {f : Nat → Move} {σ : Nat → State} (hex : Execution f σ) (h0 : Consistent (σ 0)) (n : Nat) :
    Consistent (σ n) := by
  induction n with
  | zero => exact h0
  | succ n ih => exact ih.moveStep (hex n)

theorem platform_of_moveStep {m : Move} {s t : State} (h : moveStep m s = .next t) : t.platform = s.platform := by
  by_cases hm : m = .host
  · subst hm; exact platform_of_hostStep h
  · exact (lineEffect_of_moveStep hm h).frame.platform

theorem platform_of_execution {f : Nat → Move} {σ : Nat → State} (hex : Execution f σ) (n : Nat) :
    (σ n).platform = (σ 0).platform := by
  induction n with
  | zero => rfl
  | succ n ih => exact (platform_of_moveStep (hex n)).trans ih

/-- One move of an execution in which the host has not come to the write. -/
theorem waits_of_moveStep {m : Move} {s t : State} {c : Byte} (hc : Consistent s) (hw : Waits c s.seq)
    (h : moveStep m s = .next t) : (Waits c t.seq ∨ t.seq = .sendWrite c) ∧ t.fifoEn = s.fifoEn := by
  by_cases hm : m = .host
  · subst hm
    obtain ⟨⟨-, -, hen⟩, hseq⟩ := hostStep_of_waits hc hw h
    exact ⟨hseq, hen⟩
  · have hframe := (lineEffect_of_moveStep hm h).frame
    exact ⟨.inl (hframe.seq ▸ hw), hframe.fifoEn⟩

/-- A waiting `SEND_CHAR` comes to its write. -/
theorem exists_sendWrite {f : Nat → Move} {σ : Nat → State} {c : Byte} (hex : Execution f σ) (hh : HostMoves f)
    (hfair : TxFair f σ) (h0 : Consistent (σ 0)) (hs : (σ 0).seq = .sendWait c) (hr : ProbeCanSucceed (σ 0)) :
    ∃ n, (σ n).seq = .sendWrite c := by
  by_contra hnever
  have hall (n : Nat) : Waits c (σ n).seq ∧ (σ n).fifoEn = (σ 0).fifoEn := by
    induction n with
    | zero => exact ⟨.inl hs, rfl⟩
    | succ n ih =>
      obtain ⟨hseq, hen⟩ := waits_of_moveStep (consistent_of_execution hex h0 n) ih.1 (hex n)
      exact ⟨hseq.resolve_right fun hw => hnever ⟨n + 1, hw⟩, hen.trans ih.2⟩
  exact not_waitsForEver (c := c)
    { execution := hex, host := hh, fair := hfair, consistent := consistent_of_execution hex h0
      waits := fun n => (hall n).1
      succeeds := fun n => by rwa [ProbeCanSucceed, (hall n).2, platform_of_execution hex n]
      platform := platform_of_execution hex }

/-- Settles O48: the host comes to the write, and its next move makes it. -/
theorem sendCharEndsUnderFairness : Obligations.SendCharEndsUnderFairness := by
  intro f σ c hex hh hfair h0 hs hr
  obtain ⟨n, hn⟩ := exists_sendWrite hex hh hfair h0 hs hr
  obtain ⟨m, -, hf, hseq⟩ := exists_next_hostMove hex hh n
  have hstep := hex m
  rw [hf, moveStep, hostStep_sendWrite (hseq.trans hn)] at hstep
  obtain ⟨u, -, e⟩ := andThen_eq_next hstep
  exact ⟨m, hseq.trans hn, by rw [e]⟩

end Sys2Proof.Machine
end
